-- ==== Sys2Proof/Word.lean ====
section
/-! DEFINITION. The word types of the register window (00_scope.md R7, R11; 20_memory.md R66). -/

namespace Sys2Proof

/-- One 32-bit register word: every host access moves exactly one (20_memory.md R66). -/
abbrev Word := BitVec 32

/-- One byte lane of a word (20_memory.md R62). -/
abbrev Byte := BitVec 8

/-- The 16-bit fields ROUNDS[15:0] and NUMBITS[15:0] (00_scope.md R7). -/
abbrev Half := BitVec 16

/-- A byte offset inside the 4 KiB window (20_memory.md R60: offsets are 12 bits). -/
abbrev Offset := BitVec 12

end Sys2Proof
end

