-- ==== Sys2Proof/Config.lean ====
section
/-! DEFINITION. What an implementation fixes (00_scope.md R5, R6, R8, R9) and the free values: the answers of the RNG
(R15) and the data of a read of a limb nothing has written (R16). -/

namespace Sys2Proof

/-- The configuration record of 00_scope.md R9. The third parameter, the RNG draw relation, is `RngAnswer` with
`Config.freeDraw` below and the script in `Machine.Rng`. -/
structure Config where
  /-- `OPW`, the width in bits of every big-integer register (R5). -/
  opw  : Nat
  /-- `BASE`, the platform byte address of the window (R8). -/
  base : Nat
  deriving DecidableEq, Repr

/-- `L = OPW / 32`, the number of limbs of each big-integer register (R6). -/
def Config.limbs (c : Config) : Nat := c.opw / 32

/-- The reference configuration, `OPW = 128` (R5). DESIGN CHOICE (notes/assumptions/1.md): the spec leaves `BASE`
open, and no rule depends on it; it is 0 here. -/
def Config.reference : Config := { opw := 128, base := 0 }

/-- The window offset a platform byte address names, if it lies in the window (R8, 20_memory.md R60). -/
def Config.offsetOf (c : Config) (addr : Nat) : Option Offset :=
  if c.base ≤ addr ∧ addr < c.base + 0x1000 then some (BitVec.ofNat 12 (addr - c.base)) else none

/-- One answer of the RNG to a draw (00_scope.md R15, 60_exceptions.md R230). -/
inductive RngAnswer where
  | ok (v : Nat)
  | fail
  deriving DecidableEq, Repr, Inhabited

/-- FREE VALUE (notes/assumptions/6.md): the answer to the `n`-th draw made after the RNG's script is used up. It has
no body: any value, or `fail` (60_exceptions.md R232: each request is a free input, under no law). -/
opaque Config.freeDraw : Nat → RngAnswer

/-- FREE VALUE (notes/assumptions/3.md): the UNSPECIFIED word the chip returns for the `n`-th host read of a limb
nothing has written since reset (00_scope.md R16, 10_state.md R29). -/
opaque Config.freeUninit : Nat → Word

end Sys2Proof
end

