-- ==== Sys2Proof/Syntax.lean ====
section
/-! DEFINITION. The six commands, one constructor per row of spec/opcode_table.json (30_encoding.md R92). A command
word holds no register, immediate or mode field (R90), so no constructor has an argument. -/

namespace Sys2Proof

/-- The commands of 30_encoding.md R92, in the table's order. -/
inductive Instr where
  /-- `modexp(base, exponent, modulus)`, 41_modexp.md R130. -/
  | modexp
  /-- `extgcd(a, b)`, 42_gcd_inverse.md R141. -/
  | extgcd
  /-- `modinv(a, m)`, 42_gcd_inverse.md R145. -/
  | modinv
  /-- `is_probable_prime(n, rounds)`, 43_primality.md R163. -/
  | mrtest
  /-- `random_prime(numBits)`, 44_random_search.md R182. -/
  | randprime
  /-- `random_coprime(phi)`, 44_random_search.md R191. -/
  | randcoprime
  deriving DecidableEq, Repr

end Sys2Proof
end

