-- ==== Sys2Proof/WellFormed.lean ====
section
/-! DEFINITION. The checks on what is written down: a configuration (00_scope.md R5, R8), a command word
(30_encoding.md R90, R93, R94) and a command. -/

namespace Sys2Proof

/-- `OPW` is a multiple of 32 with `64 <= OPW <= 2048` (R5), and `BASE` is 4 KiB aligned (R8). -/
def Config.wellFormed (c : Config) : Bool :=
  c.opw % 32 == 0 && 64 ≤ c.opw && c.opw ≤ 2048 && c.base % 0x1000 == 0

/-- A command word is legal when `RSV` (bits 31:8) is 0 and `OP` (bits 7:0) is 0x01 to 0x06 (R90, R93, R94). -/
def legalWord (w : Word) : Bool :=
  w.extractLsb' 8 24 == 0#24 && 1 ≤ (w.extractLsb' 0 8).toNat && (w.extractLsb' 0 8).toNat ≤ 6

/-- A command has no field a check could refuse (R90: the word holds no register, immediate or mode field). -/
def Instr.wellFormed : Instr → Bool
  | .modexp | .extgcd | .modinv | .mrtest | .randprime | .randcoprime => true

end Sys2Proof
end

