-- ==== Sys2Proof/Decode.lean ====
section
/-! DEFINITION. The decoder of 30_encoding.md R98, total on every word and on every list of bytes, rejecting by name;
and, after it, the encoder of R92. -/

namespace Sys2Proof

/-- Why the decoder refuses: the verdict `Illegal` of R98, by its cause. -/
inductive Illegal where
  /-- `RSV != 0` (R93). -/
  | reservedBits
  /-- `OP` is 0x00 or 0x07 to 0xFF (R94). -/
  | unassignedOpcode
  /-- Fewer than the four bytes of a word; no host access can write such a word (20_memory.md R66). -/
  | truncated
  deriving DecidableEq, Repr

/-- `w[7:0]`, the opcode field (R90). -/
def opField (w : Word) : BitVec 8 := w.extractLsb' 0 8

/-- `w[31:8]`, the reserved field (R90). -/
def rsvField (w : Word) : BitVec 24 := w.extractLsb' 8 24

/-- The opcode map of R92. -/
def decodeOp (op : BitVec 8) : Except Illegal Instr :=
  match op.toNat with
  | 0x01 => .ok .modexp
  | 0x02 => .ok .extgcd
  | 0x03 => .ok .modinv
  | 0x04 => .ok .mrtest
  | 0x05 => .ok .randprime
  | 0x06 => .ok .randcoprime
  | _ => .error .unassignedOpcode

/-- `decode(w)` of R98. -/
def decodeWord (w : Word) : Except Illegal Instr :=
  if rsvField w ≠ 0#24 then .error .reservedBits else decodeOp (opField w)

/-- Four byte lanes as one word: lane `k` carries bits `[8k+7 : 8k]` (20_memory.md R62). -/
def wordOfBytes (b0 b1 b2 b3 : Byte) : Word := b3 ++ b2 ++ b1 ++ b0

/-- Byte lane `k` of a word (20_memory.md R62). -/
def laneOf (w : Word) (k : Nat) : Byte := w.extractLsb' (8 * k) 8

/-- The decoder on a list of bytes, the word's little-endian image: the command and the bytes after it (R91: every
command is exactly one 32-bit word). -/
def decode : List Byte → Except Illegal (Instr × List Byte)
  | b0 :: b1 :: b2 :: b3 :: rest => (decodeWord (wordOfBytes b0 b1 b2 b3)).map (·, rest)
  | _ => .error .truncated

/-- The match word of a command (R92). -/
def encode : Instr → Word
  | .modexp      => 0x00000001#32
  | .extgcd      => 0x00000002#32
  | .modinv      => 0x00000003#32
  | .mrtest      => 0x00000004#32
  | .randprime   => 0x00000005#32
  | .randcoprime => 0x00000006#32

/-- The bytes of a word, lowest lane first (20_memory.md R62). -/
def bytesOfWord (w : Word) : List Byte := [laneOf w 0, laneOf w 1, laneOf w 2, laneOf w 3]

/-- The bytes of a command's word (R92, 20_memory.md R62). -/
def encodeBytes (i : Instr) : List Byte := bytesOfWord (encode i)

/-- The word of a table row: `nbits` bits of `w`, every bit above them 0. -/
def tableWord (nbits w : Nat) : Word := BitVec.ofNat 32 (w % 2 ^ nbits)

/-- What the decoder reads from the table word `w` of `nbits` bits (spec/opcode_table.json numbers bit 0 the least
significant of the one word). -/
def decodeTableWord (nbits w : Nat) : Option Instr :=
  match decode (bytesOfWord (tableWord nbits w)) with
  | .ok (i, _) => some i
  | .error _ => none

end Sys2Proof
end

