-- ==== Sys2Proof/Machine/State.lean ====
section
/-! DEFINITION. The state of the block and of the agents around it (10_state.md R20; 00_scope.md R4), the reasons a
step can stop, and the state after a hardware reset (10_state.md R41). -/

namespace Sys2Proof.Machine

open Sys2Proof

/-- The big-integer registers: operands A, B, M and results R, X, Y (10_state.md R22, R23, R24). -/
inductive BigName where
  | a | b | m | r | x | y
  deriving DecidableEq, Repr

/-- The control and status registers (10_state.md R27 to R37). -/
inductive CtlReg where
  | id | hwcfg | ctrl | status | cmd | rounds | numbits | limit | attempts
  deriving DecidableEq, Repr

/-- What one word of the window is: a control register, or limb `i` of a big-integer register (20_memory.md R64). -/
inductive Reg where
  | ctl (c : CtlReg)
  | limb (z : BigName) (i : Nat)
  deriving DecidableEq, Repr

/-- One 32-bit limb with its initialisation mark (10_state.md R29). -/
structure Limb where
  val  : Word
  init : Bool
  deriving DecidableEq, Repr

/-- A big-integer register: its limbs, limb 0 (the least significant) first (20_memory.md R61). -/
abbrev BigReg := List Limb

/-- The error codes of 60_exceptions.md R210. The reserved codes 0x08 to 0xFF have no constructor: R210 asks a model
to treat them as unreachable. -/
inductive ErrCode where
  | none
  | illegalCommand
  | invalidModulus
  | noModularInverse
  | invalidBitLength
  | randomnessFailure
  | attemptsExhausted
  | invalidOperand
  deriving DecidableEq, Repr

/-- The stored fields of STATUS (10_state.md R27). BUSY is not stored: it is 1 exactly while the phase is
`BUSY(cmd)`, and `Status.word` computes it from the phase. The RES0 fields have no storage. -/
structure Status where
  done    : Bool
  err     : Bool
  prime   : Bool
  xneg    : Bool
  yneg    : Bool
  errcode : ErrCode
  deriving DecidableEq, Repr

/-- The sequencer phase, which stands in for a program counter (10_state.md R21). -/
inductive Phase where
  | idle
  | busy (cmd : Word)
  deriving DecidableEq, Repr

/-- The part of the hidden engine state (10_state.md R38) that lives between two engine steps. The scratch values of
R38 live inside one step (40_command_cycle.md R113, R114; notes/assumptions/10.md). -/
inductive Engine where
  /-- No command. -/
  | empty
  /-- A command is issued and its first step, the validation of R112, is still to come. -/
  | issued
  /-- A search command has passed validation: each further step is one attempt (R114). -/
  | searching
  /-- A command whose operands held an UNINIT limb at its issue: it does not run in the model (10_state.md R29). -/
  | held
  deriving DecidableEq, Repr

/-- The model's record of faults, which no later step clears (60_exceptions.md R224). -/
structure FaultRecord where
  /-- `BusFault`: a host access got `BusError` (20_memory.md R69). -/
  busFault   : Bool
  /-- `UninitRead`: an UNINIT limb was read by the host or named by a command's operands (10_state.md R29). -/
  uninitRead : Bool
  /-- `CoeffOverflow`: a bound check of 42_gcd_inverse.md R142 or R144 failed at a commit; never expected. -/
  coeffOverflow : Bool
  deriving DecidableEq, Repr

/-- The RNG agent (60_exceptions.md R230, R232): the answers it will give, in order, and, once those are used up, how
many free ones (`Config.freeDraw`) it has given. -/
structure Rng where
  script : List RngAnswer
  taken  : Nat
  deriving DecidableEq, Repr

/-- One transaction on the host slave port (10_state.md R40): a read `(off, size)`, or a write
`(off, size, data)` with its byte strobes (20_memory.md R66). -/
inductive Access where
  | read (off : Offset) (size : Nat)
  | write (off : Offset) (size : Nat) (strobes : BitVec 4) (data : Word)
  deriving DecidableEq, Repr

/-- One line of an expanded host program: a bus access (30_encoding.md R99), or the loop `WAIT` (R100), which polls
STATUS once each time the host moves. -/
inductive HostOp where
  | access (acc : Access)
  | wait
  deriving DecidableEq, Repr

/-- What the block answered to a host access (10_state.md R40). -/
inductive Answer where
  /-- `ok` with read data. -/
  | data (w : Word)
  /-- `ok` of a write. -/
  | written
  | busError
  deriving DecidableEq, Repr

/-- Who moves next: the host, the engine, or the reset input (00_scope.md R4; 70_reset_and_hazards.md R250). -/
inductive Turn where
  | host | engine | reset
  deriving DecidableEq, Repr

/-- The reasons a step stops the machine: there are none. The spec's faults are records after which the machine goes on
(60_exceptions.md R224; `FaultRecord`), and every access, command word and draw has an outcome. -/
inductive Fault
  deriving DecidableEq, Repr

/-- The reasons a step has no meaning. -/
inductive Refusal where
  /-- An instruction that has no meaning in the model yet, by its mnemonic. No arm of `exec` raises it. Safe. -/
  | notModelled (mnemonic : String)
  deriving DecidableEq, Repr

/-- The state (10_state.md R20), then the model's own fields: the fault record, the host and RNG agents and the order
of moves. `cfg` is the configuration (00_scope.md R9): no step changes it. -/
structure State where
  cfg       : Config
  /-- Operand registers (R22). -/
  a         : BigReg
  b         : BigReg
  m         : BigReg
  /-- Result registers (R23, R24). -/
  r         : BigReg
  x         : BigReg
  y         : BigReg
  /-- CTRL.IRQ_EN, the one stored bit of CTRL (R30). -/
  irqEn     : Bool
  /-- STATUS, less BUSY (R27). -/
  status    : Status
  /-- CMD, the last accepted command word (R33). -/
  cmd       : Word
  /-- ROUNDS[15:0] (R34). -/
  rounds    : Half
  /-- NUMBITS[15:0] (R35). -/
  numbits   : Half
  /-- LIMIT (R36). -/
  limit     : Word
  /-- ATTEMPTS (R37). -/
  attempts  : Word
  /-- The sequencer phase (R21). -/
  phase     : Phase
  /-- Hidden engine state (R38). -/
  engine    : Engine
  /-- MODEL: recorded faults (60_exceptions.md R224). -/
  faults    : FaultRecord
  /-- MODEL: the answers the host has received, newest first (R40). -/
  answers   : List Answer
  /-- MODEL: the host agent's remaining program (30_encoding.md R99). -/
  program   : List HostOp
  /-- MODEL: who moves next; 20_memory.md R76 allows any order. -/
  turns     : List Turn
  /-- MODEL: the RNG agent (60_exceptions.md R232). -/
  rng       : Rng
  /-- MODEL: how many free words UNINIT reads have taken (00_scope.md R16). -/
  freeReads : Nat
  deriving DecidableEq, Repr

/-- A limb after reset: UNINIT (10_state.md R41). DESIGN CHOICE (notes/assumptions/2.md): the spec gives it no value;
it holds 0. -/
def Limb.uninit : Limb := { val := 0#32, init := false }

/-- A big-integer register after reset: every limb UNINIT (10_state.md R41). -/
def BigReg.uninit (n : Nat) : BigReg := List.replicate n Limb.uninit

/-- STATUS after reset, 0x00000000 (10_state.md R27, R41). -/
def Status.reset : Status :=
  { done := false, err := false, prime := false, xneg := false, yneg := false, errcode := .none }

/-- ROUNDS after reset and soft reset, 20 (10_state.md R34). -/
def roundsReset : Half := 20#16

/-- NUMBITS after reset and soft reset, 64 (10_state.md R35). -/
def numbitsReset : Half := 64#16

/-- The reset table of 10_state.md R41 at a configuration. The model's own fields start empty
(notes/assumptions/9.md). -/
def State.resetWith (c : Config) : State :=
  { cfg := c
    a := BigReg.uninit c.limbs, b := BigReg.uninit c.limbs, m := BigReg.uninit c.limbs
    r := BigReg.uninit c.limbs, x := BigReg.uninit c.limbs, y := BigReg.uninit c.limbs
    irqEn := false
    status := Status.reset
    cmd := 0#32
    rounds := roundsReset
    numbits := numbitsReset
    limit := 0#32
    attempts := 0#32
    phase := .idle
    engine := .empty
    faults := { busFault := false, uninitRead := false, coeffOverflow := false }
    answers := []
    program := []
    turns := []
    rng := { script := [], taken := 0 }
    freeReads := 0 }

/-- The machine right after a hardware reset, in the reference configuration (10_state.md R41, 00_scope.md R5). -/
def State.reset : State := State.resetWith Config.reference

end Sys2Proof.Machine
end

