-- ==== Sys2Proof/Machine/Flags.lean ====
section
/-! DEFINITION. STATUS and CTRL: their words as the host reads them, and every change of a flag the spec gives
(10_state.md R27, R28, R30, R39; 40_command_cycle.md R111, R115, R116, R120; 70_reset_and_hazards.md R252). -/

namespace Sys2Proof.Machine

open Sys2Proof

/-- The 8-bit code of 60_exceptions.md R210. -/
def ErrCode.code : ErrCode → BitVec 8
  | .none              => 0x00#8
  | .illegalCommand    => 0x01#8
  | .invalidModulus    => 0x02#8
  | .noModularInverse  => 0x03#8
  | .invalidBitLength  => 0x04#8
  | .randomnessFailure => 0x05#8
  | .attemptsExhausted => 0x06#8
  | .invalidOperand    => 0x07#8

/-- Whether the phase is `BUSY(cmd)` (10_state.md R21). -/
def Phase.isBusy : Phase → Bool
  | .idle => false
  | .busy _ => true

/-- The STATUS word (10_state.md R27): ERRCODE in 15:8, then YNEG, XNEG, PRIME, ERR, DONE and BUSY in bits 5 to 0;
the RES0 fields read 0. -/
def Status.word (st : Status) (busy : Bool) : Word :=
  0#16 ++ st.errcode.code ++ 0#2 ++ BitVec.ofBool st.yneg ++ BitVec.ofBool st.xneg ++ BitVec.ofBool st.prime
    ++ BitVec.ofBool st.err ++ BitVec.ofBool st.done ++ BitVec.ofBool busy

/-- The CTRL word (10_state.md R30): IRQ_EN in bit 0; SRST and the RES0 field read 0. -/
def ctrlWord (irqEn : Bool) : Word := 0#31 ++ BitVec.ofBool irqEn

/-- Bit `i` of a written word. -/
def bitOf (w : Word) (i : Nat) : Bool := w.getLsbD i

/-- The flags at an accepted CMD write (40_command_cycle.md R111): PRIME, XNEG and YNEG keep their values. -/
def Status.atIssue (st : Status) : Status := { st with done := false, err := false, errcode := .none }

/-- The flags at an error completion (40_command_cycle.md R116). -/
def Status.atError (st : Status) (code : ErrCode) : Status := { st with done := true, err := true, errcode := code }

/-- The flags at a commit (40_command_cycle.md R115), with the verdict and signs the command lists, if any. -/
def Status.atCommit (st : Status) (prime xneg yneg : Option Bool) : Status :=
  { done := true, err := false, errcode := .none
    prime := prime.getD st.prime, xneg := xneg.getD st.xneg, yneg := yneg.getD st.yneg }

/-- A STATUS write of `v` (40_command_cycle.md R120): bit 1 clears DONE, every other bit is ignored. -/
def Status.atWrite (st : Status) (v : Word) : Status := if bitOf v 1 then { st with done := false } else st

/-- The flags at a soft reset (70_reset_and_hazards.md R252): PRIME, XNEG and YNEG keep their values. -/
def Status.atSoftReset (st : Status) : Status := { st with done := false, err := false, errcode := .none }

/-- The interrupt output, a level: `irq = STATUS.DONE AND CTRL.IRQ_EN` (10_state.md R39). -/
def State.irq (s : State) : Bool := s.status.done && s.irqEn

end Sys2Proof.Machine
end

