-- ==== Sys2Proof/Machine/Operands.lean ====
section
/-! DEFINITION. The big-integer registers as numbers, and what each command reads (10_state.md R22 to R26;
20_memory.md R61; 30_encoding.md R95 to R97). -/

namespace Sys2Proof.Machine

open Sys2Proof

/-- A big-integer register as a number, `sum over i < L of limb_i * 2^(32*i)` (30_encoding.md R95). -/
def BigReg.val : BigReg → Nat
  | [] => 0
  | l :: rest => l.val.toNat + 2 ^ 32 * BigReg.val rest

/-- A number as `n` limbs, all of them marked initialised (30_encoding.md R95; 10_state.md R29). -/
def BigReg.ofNat : Nat → Nat → BigReg
  | 0, _ => []
  | n + 1, v => { val := BitVec.ofNat 32 v, init := true } :: BigReg.ofNat n (v / 2 ^ 32)

/-- Whether every limb is marked initialised (10_state.md R29). -/
def BigReg.ready (z : BigReg) : Bool := z.all (·.init)

/-- The big-integer register of a name. -/
def State.big (s : State) : BigName → BigReg
  | .a => s.a
  | .b => s.b
  | .m => s.m
  | .r => s.r
  | .x => s.x
  | .y => s.y

/-- A big-integer register replaced. -/
def State.setBig (s : State) (z : BigName) (v : BigReg) : State :=
  match z with
  | .a => { s with a := v }
  | .b => { s with b := v }
  | .m => { s with m := v }
  | .r => { s with r := v }
  | .x => { s with x := v }
  | .y => { s with y := v }

/-- The unsigned value of a big-integer register (30_encoding.md R95). -/
def State.value (s : State) (z : BigName) : Nat := (s.big z).val

/-- `rounds = zext(ROUNDS[15:0])` (30_encoding.md R96). -/
def State.roundsOperand (s : State) : Nat := s.rounds.toNat

/-- `numBits = zext(NUMBITS[15:0])` (30_encoding.md R96). -/
def State.numBitsOperand (s : State) : Nat := s.numbits.toNat

/-- The big-integer registers a command reads: the second column of 30_encoding.md R97. -/
def readsOf : Instr → List BigName
  | .modexp      => [.a, .b, .m]
  | .extgcd      => [.a, .b]
  | .modinv      => [.a, .m]
  | .mrtest      => [.a]
  | .randprime   => []
  | .randcoprime => [.m]

/-- Whether a register the command reads has an UNINIT limb (10_state.md R29, 40_command_cycle.md R111). -/
def State.uninitOperand (s : State) (i : Instr) : Bool := (readsOf i).any fun z => !(s.big z).ready

/-- Whether a command is a search command (40_command_cycle.md R114). -/
def isSearch : Instr → Bool
  | .randprime | .randcoprime => true
  | .modexp | .extgcd | .modinv | .mrtest => false

end Sys2Proof.Machine
end

