-- ==== Sys2Proof/Machine/Arith.lean ====
section
/-! DEFINITION. The pure functions of the commands over exact integers (00_scope.md R10): `modexp` (41_modexp.md R131),
`extgcd` (42_gcd_inverse.md R140, R143), `modinv` (R144), one draw (00_scope.md R15) and the Miller-Rabin test
(43_primality.md R160 to R163). Every loop recurses on a bound it cannot exceed. -/

namespace Sys2Proof.Machine

open Sys2Proof

/-- `bitlen(v)`: the number of bits of `v` without leading zeros, and 0 for 0 (00_scope.md R11). -/
def bitlen (v : Nat) : Nat := if v = 0 then 0 else v.log2 + 1

/-- The square-and-multiply loop of 41_modexp.md R131; the first argument bounds the iterations. -/
def modexpLoop (modulus : Nat) : Nat → Nat → Nat → Nat → Nat
  | 0, acc, _, _ => acc
  | k + 1, acc, b, e =>
    if e = 0 then acc
    else modexpLoop modulus k (if e % 2 = 1 then acc * b % modulus else acc) (b * b % modulus) (e / 2)

/-- `modexp` of 41_modexp.md R131, with its short-circuit; the loop runs `bitlen(exponent)` times (R132). -/
def modexp (base exponent modulus : Nat) : Nat :=
  if base % modulus = 0 then 0 else modexpLoop modulus (bitlen exponent) 1 (base % modulus) exponent

/-- The recursion of 42_gcd_inverse.md R140; the first argument bounds its depth. -/
def extgcdRec : Nat → Nat → Nat → Nat × Int × Int
  | 0, a, _ => (a, 1, 0)
  | k + 1, a, b =>
    if b = 0 then (a, 1, 0)
    else
      let t := extgcdRec k b (a % b)
      (t.1, t.2.2, t.2.1 - ((a / b : Nat) : Int) * t.2.2)

/-- `extgcd(a, b)` of 42_gcd_inverse.md R140: the second argument strictly decreases, so `b` bounds the depth. -/
def extgcd (a b : Nat) : Nat × Int × Int := extgcdRec b a b

/-- The loop of the iterative form of 42_gcd_inverse.md R143; the first argument bounds the iterations. -/
def extgcdIterLoop : Nat → Nat → Nat → Int → Int → Int → Int → Nat × Int × Int
  | 0, r0, _, s0, _, t0, _ => (r0, s0, t0)
  | k + 1, r0, r1, s0, s1, t0, t1 =>
    if r1 = 0 then (r0, s0, t0)
    else
      let q : Int := ((r0 / r1 : Nat) : Int)
      extgcdIterLoop k r1 (r0 - r0 / r1 * r1) s1 (s0 - q * s1) t1 (t0 - q * t1)

/-- `extgcd_iter(a, b)` of 42_gcd_inverse.md R143. No command calls it: R140 stays normative. -/
def extgcdIter (a b : Nat) : Nat × Int × Int := extgcdIterLoop b a b 1 0 0 1

/-- `modinv(a, m)` of 42_gcd_inverse.md R144 before any range check: `none` is `NoInverse`. -/
def modinv (a m : Nat) : Option Int :=
  let t := extgcd a m
  if t.1 ≠ 1 then none else some (if t.2.1 < 0 then t.2.1 + (m : Int) else t.2.1)

/-- What a test of a candidate says; `drawFailed` is a draw that answered `fail` (00_scope.md R15). -/
inductive Verdict where
  | accept
  | reject
  | drawFailed
  deriving DecidableEq, Repr

/-- An answer brought into the requested range: the port answers `ok v` only with `lo <= v <= hi` (60_exceptions.md
R230). A value inside is taken as it is (notes/assumptions/6.md). -/
def intoRange (lo hi v : Nat) : Nat := if lo ≤ v ∧ v ≤ hi then v else lo + v % (hi - lo + 1)

/-- The RNG's next answer: the script's, or, after its end, a free one. -/
def Rng.next (g : Rng) : RngAnswer × Rng :=
  match g.script with
  | ans :: rest => (ans, { g with script := rest })
  | [] => (Config.freeDraw g.taken, { g with taken := g.taken + 1 })

/-- `RandRange(lo, hi)` of 00_scope.md R15: `ok v` in the range, or `fail`. -/
def Rng.draw (g : Rng) (lo hi : Nat) : RngAnswer × Rng :=
  match g.next with
  | (.ok v, g') => (.ok (intoRange lo hi v), g')
  | (.fail, g') => (.fail, g')

/-- The halving loop of 43_primality.md R162; the first argument bounds the iterations. -/
def decomposeLoop : Nat → Nat → Nat → Nat × Nat
  | 0, d, r => (r, d)
  | k + 1, d, r => if d % 2 = 0 then decomposeLoop k (d / 2) (r + 1) else (r, d)

/-- `decompose(n) = (r, d)` with `n - 1 = 2^r * d` and `d` odd (43_primality.md R162). -/
def decompose (n : Nat) : Nat × Nat := decomposeLoop (bitlen n) (n - 1) 0

/-- The inner loop of 43_primality.md R161: at most `k` further squarings. -/
def squarings (n : Nat) : Nat → Nat → Bool
  | 0, _ => false
  | k + 1, x =>
    if x * x % n = n - 1 then true
    else if x * x % n = 1 then false
    else squarings n k (x * x % n)

/-- `witness_passes(n, a, r, d)` of 43_primality.md R161. -/
def witnessPasses (n a r d : Nat) : Bool :=
  if modexp a d n = 1 ∨ modexp a d n = n - 1 then true else squarings n (r - 1) (modexp a d n)

/-- The witness loop of 43_primality.md R163: one draw from `[2, n-2]` per round, none after a round that rejects or
a draw that fails. -/
def witnessLoop (n r d : Nat) : Nat → Rng → Verdict × Rng
  | 0, g => (.accept, g)
  | k + 1, g =>
    match g.draw 2 (n - 2) with
    | (.fail, g') => (.drawFailed, g')
    | (.ok a, g') => if witnessPasses n a r d then witnessLoop n r d k g' else (.reject, g')

/-- `is_probable_prime(n, rounds)` of 43_primality.md R163, with the edge cases of R160 before any draw. -/
def isProbablePrime (n rounds : Nat) (g : Rng) : Verdict × Rng :=
  if n ≤ 1 then (.reject, g)
  else if n = 2 ∨ n = 3 then (.accept, g)
  else if n % 2 = 0 then (.reject, g)
  else witnessLoop n (decompose n).1 (decompose n).2 rounds g

/-- The acceptance test of 44_random_search.md R190: it makes no draw. -/
def acceptCoprime (phi c : Nat) (g : Rng) : Verdict × Rng :=
  if 2 ≤ c ∧ c < phi ∧ (extgcd c phi).1 = 1 then (.accept, g) else (.reject, g)

end Sys2Proof.Machine
end

