-- ==== Sys2Proof/Machine/Ops.lean ====
section
/-! DEFINITION. The shared operations: issue, commit, error completion (the block's one trap, 60_exceptions.md R222)
and its acknowledgement, the attempt loop, the two resets, and the answers to the host. -/

namespace Sys2Proof.Machine

open Sys2Proof

/-- The outputs a commit writes (30_encoding.md R97): `none` where the command does not list one. -/
structure Outputs where
  r     : Option Nat := none
  x     : Option Nat := none
  y     : Option Nat := none
  prime : Option Bool := none
  xneg  : Option Bool := none
  yneg  : Option Bool := none
  deriving DecidableEq, Repr

/-- A result register at a commit: the new value with all its limbs initialised, or the register as it was. -/
def commitBig (n : Nat) (new : Option Nat) (old : BigReg) : BigReg :=
  match new with
  | some v => BigReg.ofNat n v
  | none => old

/-- `complete_ok(outputs)` of 40_command_cycle.md R115, one atomic step. -/
def State.completeOk (s : State) (o : Outputs) : State :=
  { s with
    r := commitBig s.cfg.limbs o.r s.r
    x := commitBig s.cfg.limbs o.x s.x
    y := commitBig s.cfg.limbs o.y s.y
    status := s.status.atCommit o.prime o.xneg o.yneg
    phase := .idle
    engine := .empty }

/-- The model's bound check at a commit (42_gcd_inverse.md R142, R144): it records `CoeffOverflow` where a value does
not fit, and the commit goes on (60_exceptions.md R224; notes/assumptions/15.md). -/
def State.checkFit (s : State) (fits : Bool) : State :=
  { s with faults := { s.faults with coeffOverflow := s.faults.coeffOverflow || !fits } }

/-- TAKING THE EXCEPTION: `raise CmdError(code)` (00_scope.md R14), the error completion `complete_err(code)` of
40_command_cycle.md R116. It saves ERR and ERRCODE, keeps CMD and ATTEMPTS, writes no output and sets DONE. There is
no vector, mode or stack (60_exceptions.md R222). -/
def State.completeErr (s : State) (code : ErrCode) : State :=
  { s with status := s.status.atError code, phase := .idle, engine := .empty }

/-- THE RETURN FROM IT: the host's acknowledgement by a write to STATUS (60_exceptions.md R223, 40_command_cycle.md
R120). The other acknowledgement, the next issue, is `State.issue`. -/
def State.writeStatus (s : State) (v : Word) : State := { s with status := s.status.atWrite v }

/-- What an accepted CMD write of `w` does to the block (40_command_cycle.md R111), before the model's check of the
initialisation marks. BUSY follows the phase. -/
def State.startCommand (s : State) (w : Word) : State :=
  { s with
    cmd := w
    status := s.status.atIssue
    attempts := match decodeWord w with
      | .ok i => if isSearch i then 0#32 else s.attempts
      | .error _ => s.attempts
    phase := .busy w
    engine := .issued }

/-- Whether the word is a legal command that names a register with an UNINIT limb (40_command_cycle.md R111; none for
an illegal word, 60_exceptions.md R211). -/
def State.uninitIssue (s : State) (w : Word) : Bool :=
  match decodeWord w with
  | .ok i => s.uninitOperand i
  | .error _ => false

/-- A CMD write of `w` while `IDLE` (40_command_cycle.md R111): it starts the command, and the model records
`UninitRead` and holds the command if an operand has an UNINIT limb (10_state.md R29). -/
def State.issue (s : State) (w : Word) : State :=
  if s.uninitIssue w then
    { s.startCommand w with engine := .held, faults := { s.faults with uninitRead := true } }
  else s.startCommand w

/-- `soft_reset()` of 70_reset_and_hazards.md R252. -/
def State.softReset (s : State) : State :=
  { s with
    phase := .idle
    engine := .empty
    irqEn := false
    status := s.status.atSoftReset
    cmd := 0#32
    rounds := roundsReset
    numbits := numbitsReset
    limit := 0#32
    attempts := 0#32 }

/-- A hardware reset (70_reset_and_hazards.md R250): every piece of the block's state takes its value of 10_state.md
R41. The configuration, the other agents and the fault record, which no later step clears (60_exceptions.md R224),
are not the block's state (notes/assumptions/8.md). -/
def State.hardReset (s : State) : State :=
  { State.resetWith s.cfg with
    faults := s.faults, answers := s.answers, program := s.program, turns := s.turns, rng := s.rng
    freeReads := s.freeReads }

/-- A CTRL write of `v` (40_command_cycle.md R119). -/
def State.writeCtrl (s : State) (v : Word) : State :=
  if bitOf v 1 then s.softReset else { s with irqEn := bitOf v 0 }

/-- ATTEMPTS up by one, saturating at 0xFFFFFFFF (10_state.md R37, 44_random_search.md R183). -/
def satInc (n : Word) : Word := if n = 0xFFFFFFFF#32 then 0xFFFFFFFF#32 else n + 1#32

/-- Whether the ceiling is reached: `LIMIT != 0 and ATTEMPTS = LIMIT` (44_random_search.md R183). -/
def State.atCeiling (s : State) : Bool := s.limit != 0#32 && s.attempts == s.limit

/-- A verdict at the end of an attempt: commit the candidate, abort on a failed draw, or stay `BUSY`
(40_command_cycle.md R114). -/
def State.endAttempt (s : State) (c : Nat) : Verdict → State
  | .accept => s.completeOk { r := some c }
  | .reject => s
  | .drawFailed => s.completeErr .randomnessFailure

/-- One iteration of `search(lo, hi, accept)` of 44_random_search.md R183, one engine step (40_command_cycle.md
R114): the ceiling check, the ATTEMPTS increment, one candidate draw and its test. -/
def State.attempt (s : State) (lo hi : Nat) (accept : Nat → Rng → Verdict × Rng) : State :=
  if s.atCeiling then s.completeErr .attemptsExhausted
  else
    match s.rng.draw lo hi with
    | (.fail, g) => { s with attempts := satInc s.attempts, rng := g }.completeErr .randomnessFailure
    | (.ok c, g) =>
      { s with attempts := satInc s.attempts, rng := (accept c g).2 }.endAttempt c (accept c g).1

/-- A search command has passed validation and stays `BUSY` (40_command_cycle.md R114). -/
def State.beginSearch (s : State) : State := { s with engine := .searching }

/-- The block answers the host. -/
def State.answer (s : State) (ans : Answer) : State := { s with answers := ans :: s.answers }

/-- `BusError` (20_memory.md R69): no architectural state changes, and the model records `BusFault`. -/
def State.busError (s : State) : State :=
  { s with faults := { s.faults with busFault := true }, answers := .busError :: s.answers }

/-- The command word `w` placed where the engine fetches: issued, with the engine to move next. -/
def State.placeCommand (s : State) (w : Word) : State :=
  { s.startCommand w with turns := .engine :: s.turns }

end Sys2Proof.Machine
end

