-- ==== Sys2Proof/Machine/Euclid.lean ====
section
/-! DEFINITION. EXTGCD and MODINV (42_gcd_inverse.md R141, R145), with the range checks of R142 and R144. -/

namespace Sys2Proof.Machine

open Sys2Proof

/-- The outputs of EXTGCD for a triple `(g, x, y)` (R141): magnitudes in X and Y, signs in XNEG and YNEG
(10_state.md R26). -/
def extgcdOutputs (t : Nat × Int × Int) : Outputs :=
  { r := some t.1
    x := some t.2.1.natAbs, xneg := some (decide (t.2.1 < 0))
    y := some t.2.2.natAbs, yneg := some (decide (t.2.2 < 0)) }

/-- Whether both magnitudes fit their `OPW`-bit registers (R142). -/
def coeffsFit (opw : Nat) (t : Nat × Int × Int) : Bool := t.2.1.natAbs < 2 ^ opw && t.2.2.natAbs < 2 ^ opw

/-- EXTGCD (R141). It has no error; the commit checks the bounds of R142, which always hold. -/
def execExtgcd (s : State) : Host.Outcome State Fault Refusal :=
  .next ((s.checkFit (coeffsFit s.cfg.opw (extgcd (s.value .a) (s.value .b)))).completeOk
    (extgcdOutputs (extgcd (s.value .a) (s.value .b))))

/-- MODINV (R145): INVALID_MODULUS when M = 0, NO_MODULAR_INVERSE when `gcd(A, M) != 1`, otherwise R <- the inverse,
with the check `0 <= x < m` of R144, which always holds. -/
def execModinv (s : State) : Host.Outcome State Fault Refusal :=
  if s.value .m = 0 then .next (s.completeErr .invalidModulus)
  else
    match modinv (s.value .a) (s.value .m) with
    | none => .next (s.completeErr .noModularInverse)
    | some v => .next ((s.checkFit (decide (0 ≤ v ∧ v < (s.value .m : Int)))).completeOk { r := some v.toNat })

end Sys2Proof.Machine
end

