-- ==== Sys2Proof/Machine/Modexp.lean ====
section
/-! DEFINITION. MODEXP (41_modexp.md R130). -/

namespace Sys2Proof.Machine

open Sys2Proof

/-- MODEXP (R130): INVALID_MODULUS when M = 0, otherwise R <- `modexp(A, B, M)`. -/
def execModexp (s : State) : Host.Outcome State Fault Refusal :=
  if s.value .m = 0 then .next (s.completeErr .invalidModulus)
  else .next (s.completeOk { r := some (modexp (s.value .a) (s.value .b) (s.value .m)) })

end Sys2Proof.Machine
end

