-- ==== Sys2Proof/Machine/Primality.lean ====
section
/-! DEFINITION. MRTEST (43_primality.md R163). -/

namespace Sys2Proof.Machine

open Sys2Proof

/-- MRTEST (R163): PRIME <- `is_probable_prime(A, ROUNDS)`, or RANDOMNESS_FAILURE when a witness draw fails. All its
draws fall in this one step (40_command_cycle.md R113). -/
def execMrtest (s : State) : Host.Outcome State Fault Refusal :=
  match isProbablePrime (s.value .a) s.roundsOperand s.rng with
  | (.accept, g) => .next ({ s with rng := g }.completeOk { prime := some true })
  | (.reject, g) => .next ({ s with rng := g }.completeOk { prime := some false })
  | (.drawFailed, g) => .next ({ s with rng := g }.completeErr .randomnessFailure)

end Sys2Proof.Machine
end

