-- ==== Sys2Proof/Machine/Search.lean ====
section
/-! DEFINITION. The search commands RANDPRIME and RANDCOPRIME (44_random_search.md R182, R191): the first engine step
validates, and each later one is one attempt (40_command_cycle.md R114). -/

namespace Sys2Proof.Machine

open Sys2Proof

/-- RANDPRIME (R182). Validation (R184): INVALID_BIT_LENGTH unless `1 <= NUMBITS <= OPW`. An attempt draws from
`[2^(nb-1), 2^nb - 1]` (R180) and accepts what passes Miller-Rabin at ROUNDS rounds (R181). -/
def execRandprime (s : State) : Host.Outcome State Fault Refusal :=
  match s.engine with
  | .searching =>
    .next (s.attempt (2 ^ (s.numBitsOperand - 1)) (2 ^ s.numBitsOperand - 1)
      fun c g => isProbablePrime c s.roundsOperand g)
  | _ =>
    if s.numBitsOperand = 0 ∨ s.cfg.opw < s.numBitsOperand then .next (s.completeErr .invalidBitLength)
    else .next s.beginSearch

/-- RANDCOPRIME (R191). Validation (R192): INVALID_OPERAND when `M <= 2`. An attempt draws from `[0, M - 1]` and
accepts a candidate of at least 2 that is coprime to M (R190). -/
def execRandcoprime (s : State) : Host.Outcome State Fault Refusal :=
  match s.engine with
  | .searching => .next (s.attempt 0 (s.value .m - 1) (acceptCoprime (s.value .m)))
  | _ =>
    if s.value .m ≤ 2 then .next (s.completeErr .invalidOperand) else .next s.beginSearch

end Sys2Proof.Machine
end

