-- ==== Sys2Proof/Machine/Dispatch.lean ====
section
/-! DEFINITION. One engine step of a legal command: one arm per constructor of Instr. -/

namespace Sys2Proof.Machine

open Sys2Proof

/-- What the engine does in one step for a legal command. -/
def exec (i : Instr) (s : State) : Host.Outcome State Fault Refusal :=
  match i with
  | .modexp => Sys2Proof.Machine.execModexp s
  | .extgcd => Sys2Proof.Machine.execExtgcd s
  | .modinv => Sys2Proof.Machine.execModinv s
  | .mrtest => Sys2Proof.Machine.execMrtest s
  | .randprime => Sys2Proof.Machine.execRandprime s
  | .randcoprime => Sys2Proof.Machine.execRandcoprime s

end Sys2Proof.Machine
end

