-- ==== Sys2Proof/Machine/Engine.lean ====
section
/-! DEFINITION. One move of the engine (40_command_cycle.md R112 to R114). -/

namespace Sys2Proof.Machine

open Sys2Proof

/-- Whether the engine has a command to run: `BUSY`, and not held (10_state.md R29, 40_command_cycle.md R124). -/
def State.engineReady (s : State) : Bool := s.phase.isBusy && decide (s.engine ≠ .held)

/-- The engine's step. While `IDLE` it does nothing. A held command does not run, and stays (10_state.md R29; its fault
was recorded at the CMD write). Otherwise it
fetches the command word from the phase and decodes it: an illegal word completes with ILLEGAL_COMMAND (R112, first
check), and a legal one runs. -/
def State.engineStep (s : State) : Host.Outcome State Fault Refusal :=
  match s.phase with
  | .idle => .next s
  | .busy w =>
    if s.engine = .held then .next s
    else
      match decodeWord w with
      | .error _ => .next (s.completeErr .illegalCommand)
      | .ok i => exec i s

end Sys2Proof.Machine
end

