-- ==== Sys2Proof/Machine/Bus.lean ====
section
/-! DEFINITION. The host slave port: the address map of the window and every host access (20_memory.md R60 to R75;
10_state.md R27 to R40). -/

namespace Sys2Proof.Machine

open Sys2Proof

/-- The region offset of a big-integer register (20_memory.md R64). -/
def regionOf : BigName → Nat
  | .a => 0x100
  | .b => 0x200
  | .m => 0x300
  | .r => 0x400
  | .x => 0x500
  | .y => 0x600

/-- The offset of a control register (20_memory.md R64). -/
def ctlOffset : CtlReg → Nat
  | .id       => 0x000
  | .hwcfg    => 0x004
  | .ctrl     => 0x008
  | .status   => 0x00C
  | .cmd      => 0x010
  | .rounds   => 0x014
  | .numbits  => 0x018
  | .limit    => 0x01C
  | .attempts => 0x020

/-- `off(reg)` of 30_encoding.md R99; limb `i` of `Z` is at `Zoff + 4*i` (20_memory.md R61). -/
def regOffset : Reg → Offset
  | .ctl c => BitVec.ofNat 12 (ctlOffset c)
  | .limb z i => BitVec.ofNat 12 (regionOf z + 4 * i)

/-- The big-integer register of the 0x100-byte region with this number (20_memory.md R64). -/
def bigOfRegion : Nat → Option BigName
  | 1 => some .a
  | 2 => some .b
  | 3 => some .m
  | 4 => some .r
  | 5 => some .x
  | 6 => some .y
  | _ => none

/-- The control register of this word index (20_memory.md R64). -/
def ctlOfIndex : Nat → Option CtlReg
  | 0 => some .id
  | 1 => some .hwcfg
  | 2 => some .ctrl
  | 3 => some .status
  | 4 => some .cmd
  | 5 => some .rounds
  | 6 => some .numbits
  | 7 => some .limit
  | 8 => some .attempts
  | _ => none

/-- The address map (20_memory.md R64): what an offset names with `n` limbs a register. `none` is a misaligned offset
(R67), an unmapped one (R70), or an unimplemented limb (R65). -/
def regAt (n : Nat) (off : Offset) : Option Reg :=
  if off.toNat % 4 ≠ 0 then none
  else if off.toNat < 0x100 then (ctlOfIndex (off.toNat / 4)).map .ctl
  else if off.toNat % 0x100 / 4 < n then
    (bigOfRegion (off.toNat / 0x100)).map fun z => .limb z (off.toNat % 0x100 / 4)
  else none

/-- The word a control register reads as (10_state.md R27, R30 to R37; RES0 fields read 0, 20_memory.md R73). -/
def State.ctlWord (s : State) : CtlReg → Word
  | .id       => 0x4D455850#32
  | .hwcfg    => 0x0001#16 ++ BitVec.ofNat 16 s.cfg.limbs
  | .ctrl     => ctrlWord s.irqEn
  | .status   => s.status.word s.phase.isBusy
  | .cmd      => s.cmd
  | .rounds   => s.rounds.setWidth 32
  | .numbits  => s.numbits.setWidth 32
  | .limit    => s.limit
  | .attempts => s.attempts

/-- Limb `i` of a register; a limb a register does not hold reads as one nothing has written. -/
def limbAt (z : BigReg) (i : Nat) : Limb := z[i]?.getD Limb.uninit

/-- A host read of limb `i` of `Z` (20_memory.md R61). A limb nothing has written since reset records `UninitRead`
(10_state.md R29) and the data is a free value (00_scope.md R16; notes/assumptions/3.md). -/
def State.readLimb (s : State) (z : BigName) (i : Nat) : State :=
  if (limbAt (s.big z) i).init then s.answer (.data (limbAt (s.big z) i).val)
  else
    { s with
      faults := { s.faults with uninitRead := true }
      answers := .data (Config.freeUninit s.freeReads) :: s.answers
      freeReads := s.freeReads + 1 }

/-- `MemRead(off, size)` (00_scope.md R13): refused unless it moves 32 bits (20_memory.md R66) at a mapped, aligned
offset; no side effect on the block (R74). -/
def State.hostRead (s : State) (off : Offset) (size : Nat) : State :=
  if size ≠ 4 then s.busError
  else
    match regAt s.cfg.limbs off with
    | none => s.busError
    | some (.ctl c) => s.answer (.data (s.ctlWord c))
    | some (.limb z i) => s.readLimb z i

/-- A write that is refused while `BUSY` (20_memory.md R72). -/
def State.writeIfIdle (s : State) (t : State) : State := if s.phase.isBusy then s.busError else t.answer .written

/-- A host write of `v` to a control register (20_memory.md R64, R71, R72; RES0 fields ignore what is written, R73). -/
def State.writeCtl (s : State) (v : Word) : CtlReg → State
  | .id | .hwcfg | .attempts => s.busError
  | .ctrl    => (s.writeCtrl v).answer .written
  | .status  => (s.writeStatus v).answer .written
  | .cmd     => s.writeIfIdle (s.issue v)
  | .rounds  => s.writeIfIdle { s with rounds := v.extractLsb' 0 16 }
  | .numbits => s.writeIfIdle { s with numbits := v.extractLsb' 0 16 }
  | .limit   => s.writeIfIdle { s with limit := v }

/-- A register with limb `i` written and marked initialised (10_state.md R29). -/
def setLimb (z : BigReg) (i : Nat) (v : Word) : BigReg := z.set i { val := v, init := true }

/-- Whether the host may write a big-integer register: A, B and M, not R, X and Y (20_memory.md R64, R71). -/
def hostWritable : BigName → Bool
  | .a | .b | .m => true
  | .r | .x | .y => false

/-- A host write of `v` to limb `i` of `Z` (20_memory.md R64, R71, R72). -/
def State.writeLimb (s : State) (z : BigName) (i : Nat) (v : Word) : State :=
  if hostWritable z then s.writeIfIdle (s.setBig z (setLimb (s.big z) i v)) else s.busError

/-- `MemWrite(off, size, v)` (00_scope.md R13): refused unless it moves 32 bits with all four strobes set
(20_memory.md R66) at a mapped, aligned offset. -/
def State.hostWrite (s : State) (off : Offset) (size : Nat) (strobes : BitVec 4) (v : Word) : State :=
  if size ≠ 4 ∨ strobes ≠ 0xF#4 then s.busError
  else
    match regAt s.cfg.limbs off with
    | none => s.busError
    | some (.ctl c) => s.writeCtl v c
    | some (.limb z i) => s.writeLimb z i v

/-- One host access, performed in full, with its answer (20_memory.md R75). -/
def State.access (s : State) : Access → State
  | .read off size => s.hostRead off size
  | .write off size strobes v => s.hostWrite off size strobes v

/-- One move of the host agent: the next line of its program. `WAIT` reads STATUS once and stays until BUSY = 0
(30_encoding.md R100). A host with no line left changes nothing. -/
def State.hostStep (s : State) : State :=
  match s.program with
  | [] => s
  | .access acc :: rest => { s with program := rest }.access acc
  | .wait :: rest =>
    { s with program := if s.phase.isBusy then s.program else rest }.access (.read (regOffset (.ctl .status)) 4)

end Sys2Proof.Machine
end

