-- ==== Sys2Proof/Machine/HostProgram.lean ====
section
/-! DEFINITION. The notation of host programs (30_encoding.md R99, R100): lines, their check, their encoding as bus
triples, and the expansion of the pseudo-instructions. -/

namespace Sys2Proof.Machine

open Sys2Proof

/-- One line of a host program: `W reg, value` and `R reg -> name` (R99), or a pseudo-instruction (R100). -/
inductive HostLine where
  | w (reg : Reg) (v : Word)
  | r (reg : Reg) (name : String)
  | ldbig (z : BigName) (v : Nat)
  | rdbig (z : BigName) (name : String)
  | cmd (i : Instr)
  | wait
  | run (i : Instr)
  | clrdone
  | srst
  | setirq
  deriving DecidableEq, Repr

/-- A register name is one of 20_memory.md R64: limb `i` with `i < L`. -/
def regNamed (c : Config) : Reg → Bool
  | .ctl _ => true
  | .limb _ i => i < c.limbs

/-- The check on a line: its register exists (R99), and LDBIG loads A, B or M (R100). DESIGN CHOICE
(notes/assumptions/24.md): the number of an LDBIG line lies below `2^OPW`; R100 sets no bound on it, and `expandLine` is
defined for any. -/
def lineWellFormed (c : Config) : HostLine → Bool
  | .w reg _ | .r reg _ => regNamed c reg
  | .ldbig z v => hostWritable z && v < 2 ^ c.opw
  | .rdbig _ _ | .cmd _ | .wait | .run _ | .clrdone | .srst | .setirq => true

/-- `MemWrite(off(reg), 4, v)` (R99). -/
def writeReg (reg : Reg) (v : Word) : HostOp := .access (.write (regOffset reg) 4 0xF#4 v)

/-- `MemRead(off(reg), 4)` (R99). -/
def readReg (reg : Reg) : HostOp := .access (.read (regOffset reg) 4)

/-- `limb(v, i) = v[32*i+31 : 32*i]` (00_scope.md R11). -/
def limbOf (v i : Nat) : Word := BitVec.ofNat 32 (v / 2 ^ (32 * i))

/-- A line's bus accesses, in order (R99, R100). `WAIT` stays a loop. -/
def expandLine (c : Config) : HostLine → List HostOp
  | .w reg v => [writeReg reg v]
  | .r reg _ => [readReg reg]
  | .ldbig z v => (List.range c.limbs).map fun i => writeReg (.limb z i) (limbOf v i)
  | .rdbig z _ => (List.range c.limbs).map fun i => readReg (.limb z i)
  | .cmd i => [writeReg (.ctl .cmd) (encode i)]
  | .wait => [.wait]
  | .run i => [writeReg (.ctl .cmd) (encode i), .wait]
  | .clrdone => [writeReg (.ctl .status) 0x00000002#32]
  | .srst => [writeReg (.ctl .ctrl) 0x00000002#32]
  | .setirq => [writeReg (.ctl .ctrl) 0x00000001#32]

/-- A host program's accesses (R99: a program is a list of lines run in order). -/
def expandProgram (c : Config) (p : List HostLine) : List HostOp := p.flatMap (expandLine c)

/-- The encoding of a line's access as the triple `(kind, off, data)` of R99: `true` is W. A read's data is what it
returns, so a read line has none; `WAIT` is no single access. -/
def tripleOf : HostOp → Option (Bool × Offset × Option Word)
  | .access (.write off _ _ v) => some (true, off, some v)
  | .access (.read off _) => some (false, off, none)
  | .wait => none

/-- `sum of t_i * 2^(32*i)` over the data of RDBIG's reads, limb 0 first (R100). -/
def bigOfData : List Word → Nat
  | [] => 0
  | w :: rest => w.toNat + 2 ^ 32 * bigOfData rest

/-- The data of the last `n` answers, oldest first; `none` if one of them is no read data. -/
def lastData (s : State) (n : Nat) : Option (List Word) :=
  (s.answers.take n).reverse.mapM fun
    | .data w => some w
    | .written => none
    | .busError => none

end Sys2Proof.Machine
end

