-- ==== Sys2Proof/Machine/Step.lean ====
section
/-! DEFINITION. One step of the machine: one move of one agent (00_scope.md R4; 20_memory.md R76). -/

namespace Sys2Proof.Machine

open Sys2Proof

/-- One step: the agent that `turns` names moves. DESIGN CHOICE (notes/assumptions/7.md): with no turn listed, the
engine moves while it has a command to run (the fairness of 40_command_cycle.md R124), and otherwise the host. -/
def step (s : State) : Host.Outcome State Fault Refusal :=
  match s.turns with
  | .host :: rest => .next { s with turns := rest }.hostStep
  | .engine :: rest => { s with turns := rest }.engineStep
  | .reset :: rest => .next { s with turns := rest }.hardReset
  | [] => if s.engineReady then s.engineStep else .next s.hostStep

/-- The table word placed where `step` fetches its next command: CMD and the phase hold it, as after an accepted CMD
write, and the engine moves next (notes/assumptions/11.md). -/
def State.withFetchWord (s : State) (nbits w : Nat) : State := s.placeCommand (tableWord nbits w)

end Sys2Proof.Machine
end

