-- ==== Sys2Proof/Safety.lean ====
section
/-! DEFINITION. What counts as a safe run and a final state (40_command_cycle.md R125; 60_exceptions.md R224), the
machine's invariant, and the comparisons of two states that claims use. -/

namespace Sys2Proof.Machine

open Sys2Proof

/-- No fault is recorded (60_exceptions.md R224). -/
def State.noFault (s : State) : Bool := !s.faults.busFault && !s.faults.uninitRead && !s.faults.coeffOverflow

/-- Whether the host is inside `WAIT` (30_encoding.md R100): the loop is at the head of its program and has begun or
is to begin. -/
def State.inWait (s : State) : Bool :=
  match s.program with
  | .wait :: _ => true
  | _ => false

/-- A final state (40_command_cycle.md R125): the phase is `IDLE`, no fault is recorded, and the host is not inside
`WAIT`. -/
def State.final (s : State) : Bool := !s.phase.isBusy && s.noFault && !s.inWait

/-- A run has ended when the host has performed its program's last access (40_command_cycle.md R125). -/
def State.ended (s : State) : Bool := s.program.isEmpty

/-- `n` steps, ending at the first fault or refusal. -/
def runSteps : Nat → State → Host.Outcome State Fault Refusal
  | 0, s => .next s
  | n + 1, s =>
    match step s with
    | .next t => runSteps n t
    | .fault f => .fault f
    | .refused q => .refused q

/-- A safe run: it never stops, and records no fault. -/
def Safe (s : State) : Prop := ∀ n, ∃ t, runSteps n s = .next t ∧ t.noFault = true

/-- Whether an outcome is a next state with a property; for tests. -/
def nextSatisfies (o : Host.Outcome State Fault Refusal) (p : State → Bool) : Bool :=
  match o with
  | .next t => p t
  | .fault _ => false
  | .refused _ => false

/-- The block's own state (10_state.md R20): the fault record and the other agents' fields blanked. Two states with
the same `block` agree on every register, mark, flag, the phase and the engine. -/
def State.block (s : State) : State :=
  { s with
    faults := { busFault := false, uninitRead := false, coeffOverflow := false }, answers := [], program := []
    turns := [], rng := { script := [], taken := 0 }, freeReads := 0 }

/-- Every register of the block has its `L` limbs, in a configuration that 00_scope.md R5 allows. -/
structure State.Shaped (s : State) : Prop where
  cfg_ok : s.cfg.wellFormed = true
  limbs  : ∀ z, (s.big z).length = s.cfg.limbs

/-- The word the window holds at an offset, whatever its mark; `none` where no register is (20_memory.md R64). -/
def State.windowWord (s : State) (off : Offset) : Option Word :=
  match regAt s.cfg.limbs off with
  | some (.ctl c) => some (s.ctlWord c)
  | some (.limb z i) => some (limbAt (s.big z) i).val
  | none => none

/-- A command has just completed with success (40_command_cycle.md R115). -/
def State.succeeded (t : State) : Prop :=
  t.phase = .idle ∧ t.engine = .empty ∧ t.status.done = true ∧ t.status.err = false ∧ t.status.errcode = .none

/-- A command has just completed with an error code (40_command_cycle.md R116). -/
def State.failedWith (t : State) (code : ErrCode) : Prop :=
  t.phase = .idle ∧ t.engine = .empty ∧ t.status.done = true ∧ t.status.err = true ∧ t.status.errcode = code

/-- R, X, Y, PRIME, XNEG and YNEG, with all marks, are as before (40_command_cycle.md R116). -/
def sameOutputs (s t : State) : Prop :=
  t.r = s.r ∧ t.x = s.x ∧ t.y = s.y ∧ t.status.prime = s.status.prime ∧ t.status.xneg = s.status.xneg ∧
    t.status.yneg = s.status.yneg

/-- A, B, M, ROUNDS, NUMBITS, LIMIT, CTRL, CMD and the configuration, which ID and HWCFG show, are as before
(40_command_cycle.md R118). -/
def sameInputs (s t : State) : Prop :=
  t.cfg = s.cfg ∧ t.a = s.a ∧ t.b = s.b ∧ t.m = s.m ∧ t.rounds = s.rounds ∧ t.numbits = s.numbits ∧
    t.limit = s.limit ∧ t.irqEn = s.irqEn ∧ t.cmd = s.cmd

/-- The host, its answers and the order of moves are as before. -/
def sameHost (s t : State) : Prop :=
  t.answers = s.answers ∧ t.program = s.program ∧ t.turns = s.turns ∧
    t.freeReads = s.freeReads

/-- Whether the next `k` requests for a value of `[lo, hi]` all answer `ok` (00_scope.md R15). -/
def Rng.answersOk (lo hi : Nat) : Nat → Rng → Bool
  | 0, _ => true
  | k + 1, g =>
    match g.draw lo hi with
    | (.ok _, g') => g'.answersOk lo hi k
    | (.fail, _) => false

/-- A search command past validation has legal operands: they cannot change while `BUSY` (20_memory.md R72, R79). -/
def State.validated (s : State) : Instr → Prop
  | .randprime => 1 ≤ s.numBitsOperand ∧ s.numBitsOperand ≤ s.cfg.opw
  | .randcoprime => 2 < s.value .m
  | .modexp | .extgcd | .modinv | .mrtest => False

/-- The invariant every step keeps. -/
structure State.Inv (s : State) : Prop where
  /-- The registers have their shape (00_scope.md R5, R6). -/
  shaped    : s.Shaped
  /-- A result register is initialised whole or not at all (10_state.md R29). -/
  marks     : ∀ z, hostWritable z = false → (∀ l ∈ s.big z, l.init = true) ∨ (∀ l ∈ s.big z, l.init = false)
  /-- The engine holds a command exactly while `BUSY` (10_state.md R21, R38). -/
  engine    : s.engine = .empty ↔ s.phase = .idle
  /-- While `BUSY`, CMD holds the running word and DONE, ERR and ERRCODE are 0 (40_command_cycle.md R111, R120). -/
  busyFlags : ∀ w, s.phase = .busy w →
    s.cmd = w ∧ s.status.done = false ∧ s.status.err = false ∧ s.status.errcode = .none
  /-- ERR is 1 exactly with a nonzero ERRCODE (60_exceptions.md R210). -/
  errCode   : s.status.err = true ↔ s.status.errcode ≠ .none
  /-- A zero coefficient has sign flag 0 (10_state.md R26). -/
  signs     : (s.status.xneg = true → s.value .x ≠ 0) ∧ (s.status.yneg = true → s.value .y ≠ 0)
  /-- A held command has its fault on record (10_state.md R29). -/
  held      : s.engine = .held → s.faults.uninitRead = true
  /-- No result was ever too wide for its register (42_gcd_inverse.md R142, R144). -/
  fits      : s.faults.coeffOverflow = false
  /-- A command that runs has every operand initialised (10_state.md R29). -/
  ready     : ∀ w i, s.phase = .busy w → s.engine ≠ .held → decodeWord w = .ok i → s.uninitOperand i = false
  /-- An engine in its attempt loop runs a search command that passed validation (40_command_cycle.md R114). -/
  searching : s.engine = .searching → ∃ w i, s.phase = .busy w ∧ decodeWord w = .ok i ∧ s.validated i
  /-- A search command never counts past its ceiling (44_random_search.md R183). -/
  ceiling   : ∀ w i, s.phase = .busy w → decodeWord w = .ok i → isSearch i = true → s.limit ≠ 0#32 →
    s.attempts.toNat ≤ s.limit.toNat

end Sys2Proof.Machine
end

