-- ==== Sys2Proof/Certificates/Slice0/Obligations.lean ====
section
/-! DEFINITION. The statements for the provers. Each docstring names the rule of spec/ it formalises; OBLIGATIONS.json
lists them. -/

open Sys2Proof Sys2Proof.Machine

/-! ## Encoding and the address map -/

/-- Sanity: words written out bit by bit from 30_encoding.md R90 and R92 decode to their commands. Two are given as bytes,
lowest first (20_memory.md R62), with what follows the one word left over (30_encoding.md R91); that the decoder also
takes bytes is the model's choice (notes/assumptions/18.md). -/
def Obligations.SomeCommandWordsDecode : Prop :=
  decodeWord 0b00000000000000000000000000000001#32 = .ok .modexp ∧
  decodeWord 0b00000000000000000000000000000011#32 = .ok .modinv ∧
  decode [0b00000100#8, 0#8, 0#8, 0#8] = .ok (.mrtest, []) ∧
  decode [0b00000110#8, 0#8, 0#8, 0#8, 0xFF#8] = .ok (.randcoprime, [0xFF#8]) ∧
  decodeWord 0b00000000000000000000000100000001#32 = .error .reservedBits

/-- 30_encoding.md R92: each command is selected by the full word, mask 0xFFFFFFFF. -/
def Obligations.FullWordSelectsTheCommand : Prop :=
  ∀ w : Word,
    (decodeWord w = .ok .modexp ↔ w = 0x00000001#32) ∧
    (decodeWord w = .ok .extgcd ↔ w = 0x00000002#32) ∧
    (decodeWord w = .ok .modinv ↔ w = 0x00000003#32) ∧
    (decodeWord w = .ok .mrtest ↔ w = 0x00000004#32) ∧
    (decodeWord w = .ok .randprime ↔ w = 0x00000005#32) ∧
    (decodeWord w = .ok .randcoprime ↔ w = 0x00000006#32)

/-- Decode and encode agree (30_encoding.md R92, R98): on words, and a word is legal exactly when it decodes (R93, R94).
The clauses on a list of bytes (one word, R91, its lowest byte first, 20_memory.md R62, with any bytes after it) and on
`decodeTableWord`, which lays a table word out as those bytes, rest on the model's choice that the decoder also takes
bytes (notes/assumptions/18.md). -/
def Obligations.DecodeEncodeAgree : Prop :=
  ∀ (i : Instr) (w : Word) (rest : List Byte), i.wellFormed = true →
    decodeWord (encode i) = .ok i ∧ (decodeWord w = .ok i → encode i = w) ∧
    decode (encodeBytes i ++ rest) = .ok (i, rest) ∧
    decode (bytesOfWord w ++ rest) = (decodeWord w).map (·, rest) ∧
    (decodeTableWord 32 w.toNat = some i ↔ decodeWord w = .ok i) ∧
    (legalWord w = true ↔ ∃ j, decodeWord w = .ok j)

/-- 30_encoding.md R93 and 60_exceptions.md R211: an illegal word completes with ILLEGAL_COMMAND, whatever the
operands; no draw, no output, ATTEMPTS unchanged, and no `UninitRead` at its issue. -/
def Obligations.IllegalWordCompletesWithIllegalCommand : Prop :=
  ∀ (s : State) (w : Word),
    (w.extractLsb' 8 24 ≠ 0#24 ∨ w.extractLsb' 0 8 = 0x00#8 ∨ 0x07 ≤ (w.extractLsb' 0 8).toNat) →
    s.uninitIssue w = false ∧ ErrCode.illegalCommand.code = 0x01#8 ∧
    (s.phase = .busy w → s.engine ≠ .held →
      s.engineStep = .next
        { s with
          status := { s.status with done := true, err := true, errcode := .illegalCommand }
          phase := .idle
          engine := .empty })

/-- The address map of 20_memory.md R64 and R65: each register stands at its offset, and an offset names at most that
register. -/
def Obligations.AddressMapIsExact : Prop :=
  ∀ n : Nat, n ≤ 64 →
    (∀ i, i < n →
      regAt n (BitVec.ofNat 12 (0x100 + 4 * i)) = some (.limb .a i) ∧
      regAt n (BitVec.ofNat 12 (0x200 + 4 * i)) = some (.limb .b i) ∧
      regAt n (BitVec.ofNat 12 (0x300 + 4 * i)) = some (.limb .m i) ∧
      regAt n (BitVec.ofNat 12 (0x400 + 4 * i)) = some (.limb .r i) ∧
      regAt n (BitVec.ofNat 12 (0x500 + 4 * i)) = some (.limb .x i) ∧
      regAt n (BitVec.ofNat 12 (0x600 + 4 * i)) = some (.limb .y i)) ∧
    regAt n 0x000#12 = some (.ctl .id) ∧ regAt n 0x004#12 = some (.ctl .hwcfg) ∧
    regAt n 0x008#12 = some (.ctl .ctrl) ∧ regAt n 0x00C#12 = some (.ctl .status) ∧
    regAt n 0x010#12 = some (.ctl .cmd) ∧ regAt n 0x014#12 = some (.ctl .rounds) ∧
    regAt n 0x018#12 = some (.ctl .numbits) ∧ regAt n 0x01C#12 = some (.ctl .limit) ∧
    regAt n 0x020#12 = some (.ctl .attempts) ∧
    (∀ (off : Offset) (reg : Reg), regAt n off = some reg → off = regOffset reg ∧ ∀ z i, reg = .limb z i → i < n)

/-! ## Reset -/

/-- The reset table of 10_state.md R41, at every configuration: the phase, the marks of every limb, every control and
status register as the host reads it, the hidden engine state and `irq`. -/
def Obligations.ResetLeavesTheResetTable : Prop :=
  ∀ c : Config, c.wellFormed = true →
    (State.resetWith c).phase = .idle ∧
    (∀ z, ((State.resetWith c).big z).length = c.opw / 32 ∧ ∀ l ∈ (State.resetWith c).big z, l.init = false) ∧
    (State.resetWith c).ctlWord .id = 0x4D455850#32 ∧
    (State.resetWith c).ctlWord .hwcfg = BitVec.ofNat 32 ((1 <<< 16) ||| (c.opw / 32)) ∧
    (State.resetWith c).ctlWord .ctrl = 0x00000000#32 ∧
    (State.resetWith c).ctlWord .status = 0x00000000#32 ∧
    (State.resetWith c).ctlWord .cmd = 0x00000000#32 ∧
    (State.resetWith c).ctlWord .rounds = 0x00000014#32 ∧
    (State.resetWith c).ctlWord .numbits = 0x00000040#32 ∧
    (State.resetWith c).ctlWord .limit = 0x00000000#32 ∧
    (State.resetWith c).ctlWord .attempts = 0x00000000#32 ∧
    (State.resetWith c).engine = .empty ∧ (State.resetWith c).irq = false

/-- A hardware reset (70_reset_and_hazards.md R250) gives every piece of the block's state its reset value, in any
phase. The value 0 of an UNINIT limb is the model's choice (notes/assumptions/2.md), and so is what the other agents
keep (notes/assumptions/8.md). -/
def Obligations.HardwareResetGivesResetState : Prop :=
  ∀ (s : State) (rest : List Turn), s.turns = .reset :: rest →
    ∃ t, step s = .next t ∧ t.block = (State.resetWith s.cfg).block ∧ t.turns = rest ∧ t.faults = s.faults ∧
      t.answers = s.answers ∧ t.program = s.program ∧ t.rng = s.rng

/-- 40_command_cycle.md R119 and 70_reset_and_hazards.md R252: a CTRL write, in either phase. Bit 1 performs the soft
reset, under which A, B, M, R, X, Y, their marks, PRIME, XNEG and YNEG keep their values and IRQ_EN ends as 0; without
it bit 0 is IRQ_EN's new value. -/
def Obligations.CtrlWriteSoftResetsOrSetsIrqEnable : Prop :=
  ∀ (s : State) (v : Word),
    (v.getLsbD 1 = true →
      s.access (.write 0x008#12 4 0xF#4 v) =
        { s with
          phase := .idle
          engine := .empty
          irqEn := false
          status := { s.status with done := false, err := false, errcode := .none }
          cmd := 0x00000000#32
          rounds := 20#16
          numbits := 64#16
          limit := 0#32
          attempts := 0#32
          answers := .written :: s.answers }) ∧
    (v.getLsbD 1 = false →
      s.access (.write 0x008#12 4 0xF#4 v) = { s with irqEn := v.getLsbD 0, answers := .written :: s.answers })

/-! ## STATUS and the interrupt -/

/-- A STATUS read shows the fields of 10_state.md R27 and the codes of 60_exceptions.md R210; the RES0 fields read
0. -/
def Obligations.StatusReadsItsFields : Prop :=
  ∀ s : State, ∃ w : Word,
    s.access (.read 0x00C#12 4) = { s with answers := .data w :: s.answers } ∧
    (w.getLsbD 0 = true ↔ ∃ c, s.phase = .busy c) ∧ w.getLsbD 1 = s.status.done ∧ w.getLsbD 2 = s.status.err ∧
    w.getLsbD 3 = s.status.prime ∧ w.getLsbD 4 = s.status.xneg ∧ w.getLsbD 5 = s.status.yneg ∧
    w.extractLsb' 6 2 = 0#2 ∧ w.extractLsb' 16 16 = 0#16 ∧
    w.extractLsb' 8 8 =
      match s.status.errcode with
      | .none => 0x00#8
      | .illegalCommand => 0x01#8
      | .invalidModulus => 0x02#8
      | .noModularInverse => 0x03#8
      | .invalidBitLength => 0x04#8
      | .randomnessFailure => 0x05#8
      | .attemptsExhausted => 0x06#8
      | .invalidOperand => 0x07#8

/-- 40_command_cycle.md R120: a STATUS write, in either phase. While `BUSY`, in a state that meets the invariant, DONE is
already 0 and the write has no effect on the block. -/
def Obligations.StatusWriteClearsOnlyDone : Prop :=
  ∀ (s : State) (v : Word),
    s.access (.write 0x00C#12 4 0xF#4 v) =
      { s with
        status := { s.status with done := if v.getLsbD 1 then false else s.status.done }
        answers := .written :: s.answers } ∧
    (s.Inv → s.phase ≠ .idle →
      s.access (.write 0x00C#12 4 0xF#4 v) = { s with answers := .written :: s.answers })

/-- The interrupt (60_exceptions.md R220, R221; 10_state.md R39): raised by every completion, success or error, exactly
when IRQ_EN is 1; dropped by a write of 1 to DONE, by the next issue and by a soft reset. -/
def Obligations.CompletionRaisesTheInterrupt : Prop :=
  (∀ (s t : State) (w : Word), s.phase = .busy w → s.engineStep = .next t → t.phase = .idle → t.irq = s.irqEn) ∧
  (∀ (s : State) (v : Word), v.getLsbD 1 = true → (s.access (.write 0x00C#12 4 0xF#4 v)).irq = false) ∧
  (∀ (s : State) (w : Word), s.phase = .idle → (s.access (.write 0x010#12 4 0xF#4 w)).irq = false) ∧
  (∀ (s : State) (v : Word), v.getLsbD 1 = true → (s.access (.write 0x008#12 4 0xF#4 v)).irq = false)

/-! ## The host port -/

/-- 20_memory.md R66, R67 and R70 with the map's unmapped offsets (R64, R65: 0x024 to 0x0FF, 0x700 to 0xFFF, and the
limbs `i >= L` of a region): such an access is refused with `BusError` and changes no state. The fault record and the
answer are the model's (R69). -/
def Obligations.BadWidthAlignmentOrOffsetIsRefused : Prop :=
  ∀ (s : State) (off : Offset) (size : Nat) (strobes : BitVec 4) (v : Word),
    (size ≠ 4 ∨ off.extractLsb' 0 2 ≠ 0#2 ∨ (0x024 ≤ off.toNat ∧ off.toNat ≤ 0x0FF) ∨ 0x700 ≤ off.toNat ∨
      (0x100 ≤ off.toNat ∧ s.cfg.limbs ≤ off.toNat % 0x100 / 4) →
      s.access (.read off size) =
        { s with faults := { s.faults with busFault := true }, answers := .busError :: s.answers }) ∧
    (size ≠ 4 ∨ strobes ≠ 0b1111#4 ∨ off.extractLsb' 0 2 ≠ 0#2 ∨ (0x024 ≤ off.toNat ∧ off.toNat ≤ 0x0FF) ∨
      0x700 ≤ off.toNat ∨ (0x100 ≤ off.toNat ∧ s.cfg.limbs ≤ off.toNat % 0x100 / 4) →
      s.access (.write off size strobes v) =
        { s with faults := { s.faults with busFault := true }, answers := .busError :: s.answers })

/-- 20_memory.md R71 and R72: a write to ID, HWCFG, ATTEMPTS or a limb of R, X or Y is refused in either phase; while
`BUSY`, so is a write to CMD, ROUNDS, NUMBITS, LIMIT or a limb of A, B or M. Writes to CTRL and STATUS are accepted in
both phases. -/
def Obligations.ReadOnlyAndBusyWritesAreRefused : Prop :=
  (∀ (s : State) (off : Offset) (v : Word),
    (off = 0x000#12 ∨ off = 0x004#12 ∨ off = 0x020#12 ∨ (0x400 ≤ off.toNat ∧ off.toNat ≤ 0x6FF) ∨
      (s.phase ≠ .idle ∧
        (off = 0x010#12 ∨ off = 0x014#12 ∨ off = 0x018#12 ∨ off = 0x01C#12 ∨
          (0x100 ≤ off.toNat ∧ off.toNat ≤ 0x3FF)))) →
    s.access (.write off 4 0xF#4 v) =
      { s with faults := { s.faults with busFault := true }, answers := .busError :: s.answers }) ∧
  (∀ (s : State) (v : Word),
    (s.access (.write 0x008#12 4 0xF#4 v)).answers = .written :: s.answers ∧
    (s.access (.write 0x008#12 4 0xF#4 v)).faults = s.faults ∧
    (s.access (.write 0x00C#12 4 0xF#4 v)).answers = .written :: s.answers ∧
    (s.access (.write 0x00C#12 4 0xF#4 v)).faults = s.faults)

/-- 20_memory.md R74: a read, accepted or refused, changes no state of the block, and gets exactly one answer. -/
def Obligations.ReadsHaveNoSideEffects : Prop :=
  ∀ (s : State) (off : Offset) (size : Nat),
    (s.access (.read off size)).block = s.block ∧
    (∃ ans, (s.access (.read off size)).answers = ans :: s.answers ∧ ans ≠ .written) ∧
    (s.access (.read off size)).program = s.program ∧ (s.access (.read off size)).turns = s.turns ∧
    (s.access (.read off size)).rng = s.rng

/-- 10_state.md R31 and R32: what ID and HWCFG read, at all times; a write to either is refused. -/
def Obligations.IdentificationRegistersAreConstant : Prop :=
  ∀ s : State, s.cfg.wellFormed = true →
    (∃ w, s.access (.read 0x000#12 4) = { s with answers := .data w :: s.answers } ∧ w = 0x4D455850#32) ∧
    (∃ w, s.access (.read 0x004#12 4) = { s with answers := .data w :: s.answers } ∧
      (w.extractLsb' 0 16).toNat = s.cfg.opw / 32 ∧ w.extractLsb' 16 16 = 0x0001#16 ∧
      (s.cfg.opw = 128 → w = 0x00010004#32)) ∧
    (∀ (off : Offset) (v : Word), off = 0x000#12 ∨ off = 0x004#12 →
      s.access (.write off 4 0xF#4 v) =
        { s with faults := { s.faults with busFault := true }, answers := .busError :: s.answers })

/-- The parameter registers and CMD (10_state.md R33 to R36; 20_memory.md R73, R75): written while `IDLE`, each parameter
changes alone, and all read back, ROUNDS and NUMBITS with their RES0 halves 0. In any state a read of CTRL answers IRQ_EN
in bit 0 and 0 elsewhere (R30), and a read of ROUNDS, NUMBITS, LIMIT, CMD or ATTEMPTS, the live count (R37), answers what
the register holds. -/
def Obligations.ParameterRegistersReadBack : Prop :=
  (∀ (s : State) (v : Word), s.phase = .idle →
    s.access (.write 0x014#12 4 0xF#4 v) =
      { s with rounds := v.extractLsb' 0 16, answers := .written :: s.answers } ∧
    s.access (.write 0x018#12 4 0xF#4 v) =
      { s with numbits := v.extractLsb' 0 16, answers := .written :: s.answers } ∧
    s.access (.write 0x01C#12 4 0xF#4 v) = { s with limit := v, answers := .written :: s.answers } ∧
    ((s.access (.write 0x014#12 4 0xF#4 v)).access (.read 0x014#12 4)).answers.head? =
      some (.data (0#16 ++ v.extractLsb' 0 16)) ∧
    ((s.access (.write 0x018#12 4 0xF#4 v)).access (.read 0x018#12 4)).answers.head? =
      some (.data (0#16 ++ v.extractLsb' 0 16)) ∧
    ((s.access (.write 0x01C#12 4 0xF#4 v)).access (.read 0x01C#12 4)).answers.head? = some (.data v) ∧
    ((s.access (.write 0x010#12 4 0xF#4 v)).access (.read 0x010#12 4)).answers.head? = some (.data v)) ∧
  (∀ s : State,
    (∃ w : Word, s.access (.read 0x008#12 4) = { s with answers := .data w :: s.answers } ∧
      w.getLsbD 0 = s.irqEn ∧ w.extractLsb' 1 31 = 0#31) ∧
    s.access (.read 0x014#12 4) = { s with answers := .data (0#16 ++ s.rounds) :: s.answers } ∧
    s.access (.read 0x018#12 4) = { s with answers := .data (0#16 ++ s.numbits) :: s.answers } ∧
    s.access (.read 0x01C#12 4) = { s with answers := .data s.limit :: s.answers } ∧
    s.access (.read 0x010#12 4) = { s with answers := .data s.cmd :: s.answers } ∧
    s.access (.read 0x020#12 4) = { s with answers := .data s.attempts :: s.answers })

/-- A limb write while `IDLE` (20_memory.md R61, R64, R75; 10_state.md R29): it stores that limb of that register, marks
it, changes nothing else, and the next read of it returns the value. -/
def Obligations.LimbWriteStoresOneLimb : Prop :=
  ∀ (s : State) (z : BigName) (i : Nat) (v : Word), s.Shaped → s.phase = .idle → hostWritable z = true →
    i < s.cfg.limbs →
    s.access (.write (regOffset (.limb z i)) 4 0xF#4 v) =
      { s.setBig z ((s.big z).set i { val := v, init := true }) with answers := .written :: s.answers } ∧
    ((s.access (.write (regOffset (.limb z i)) 4 0xF#4 v)).access (.read (regOffset (.limb z i)) 4)).answers.head? =
      some (.data v)

/-- 40_command_cycle.md R111: a CMD write while `IDLE` is accepted, whatever the word, and does this as one step; `u` is
the model-only check of the marks. What the hidden engine state becomes is not said here (10_state.md R38). -/
def Obligations.IssueStartsTheCommand : Prop :=
  ∀ (s : State) (w : Word), s.phase = .idle →
    ∃ (u : Bool) (e : Engine),
      (u = true ↔ ∃ i, decodeWord w = .ok i ∧ ∃ z ∈ readsOf i, ∃ l ∈ s.big z, l.init = false) ∧
      s.access (.write 0x010#12 4 0xF#4 w) =
        { s with
          cmd := w
          status := { s.status with done := false, err := false, errcode := .none }
          attempts := if decodeWord w = .ok .randprime ∨ decodeWord w = .ok .randcoprime then 0#32 else s.attempts
          phase := .busy w
          engine := e
          faults := { s.faults with uninitRead := s.faults.uninitRead || u }
          answers := .written :: s.answers }

/-- 10_state.md R29: the initialisation marks, and the fault `UninitRead` in its two cases. That a read goes on with a
free word is the model's choice (notes/assumptions/3.md), and that a command which does not run stays `BUSY`, its engine
steps changing nothing, is its reading of R29 (notes/assumptions/4.md). -/
def Obligations.InitialisationMarksAndUninitRead : Prop :=
  (∀ (s : State) (z : BigName), ∀ l ∈ s.hardReset.big z, l.init = false) ∧
  (∀ (s : State) (z : BigName), s.softReset.big z = s.big z) ∧
  (∀ (s : State) (z : BigName) (i : Nat) (v : Word), s.Shaped → s.phase = .idle → hostWritable z = true →
    i < s.cfg.limbs →
    ((s.access (.write (regOffset (.limb z i)) 4 0xF#4 v)).big z)[i]? = some { val := v, init := true }) ∧
  (∀ (s : State) (o : Outputs) (v : Nat),
    (o.r = some v → (s.completeOk o).r.ready = true) ∧ (o.x = some v → (s.completeOk o).x.ready = true) ∧
    (o.y = some v → (s.completeOk o).y.ready = true)) ∧
  (∀ (s : State) (z : BigName) (i : Nat) (l : Limb), s.Shaped → (s.big z)[i]? = some l → l.init = false →
    ∃ w, s.access (.read (regOffset (.limb z i)) 4) =
      { s with
        faults := { s.faults with uninitRead := true }, answers := .data w :: s.answers
        freeReads := s.freeReads + 1 }) ∧
  (∀ (s : State) (w : Word) (i : Instr) (z : BigName) (l : Limb), s.phase = .idle → decodeWord w = .ok i →
    z ∈ readsOf i → l ∈ s.big z → l.init = false →
    (s.access (.write 0x010#12 4 0xF#4 w)).faults.uninitRead = true ∧
    (s.access (.write 0x010#12 4 0xF#4 w)).phase = .busy w ∧
    (s.access (.write 0x010#12 4 0xF#4 w)).engineStep = .next (s.access (.write 0x010#12 4 0xF#4 w)))

/-! ## Steps of the agents -/

/-- A step runs the decoded command (10_state.md R21; 40_command_cycle.md R113, R114): when the phase is `BUSY(w)`, the
engine is to move and the command is not held, the step is `exec` of the decoded command, with the turn used up. That
an empty list of turns lets the engine move is the model's choice (notes/assumptions/7.md). The second clause is about
`withFetchWord`, the model's placing of a command, which leaves out the mark check of 10_state.md R29
(notes/assumptions/11.md): it says that the command placed runs at the very next step, whatever its operands' marks. -/
def Obligations.EngineTurnRunsTheDecodedCommand : Prop :=
  (∀ (s : State) (w : Word) (i : Instr), s.phase = .busy w → s.engine ≠ .held → decodeWord w = .ok i →
    (∀ rest, s.turns = .engine :: rest → step s = exec i { s with turns := rest }) ∧
    (s.turns = [] → step s = exec i s)) ∧
  (∀ (s : State) (w : Word) (i : Instr), decodeWord w = .ok i →
    step (s.withFetchWord 32 w.toNat) = exec i (s.startCommand w))

/-- `WAIT` of 30_encoding.md R100: each move of the host reads STATUS; the loop ends exactly when the word read has
BUSY = 0. -/
def Obligations.WaitPollsUntilNotBusy : Prop :=
  ∀ (s : State) (rest : List HostOp), s.program = .wait :: rest →
    ∃ w : Word,
      s.hostStep =
        { s with program := if w.getLsbD 0 then .wait :: rest else rest, answers := .data w :: s.answers } ∧
      (w.getLsbD 0 = true ↔ s.phase ≠ .idle) ∧ w = s.ctlWord .status

/-- LDBIG of 30_encoding.md R100 with the limb order of 20_memory.md R61: after its `L` writes from `IDLE` the register
holds the number, every limb is initialised, and nothing else of the block has changed. The number lies below `2^OPW`,
which is the model's check on the line (notes/assumptions/24.md). -/
def Obligations.LoadBigStoresTheNumber : Prop :=
  ∀ (s : State) (z : BigName) (v : Nat) (rest : List HostOp), s.Shaped → s.phase = .idle →
    lineWellFormed s.cfg (.ldbig z v) = true →
    s.program = expandLine s.cfg (.ldbig z v) ++ rest → s.turns = List.replicate s.cfg.limbs .host →
    ∃ t, runSteps s.cfg.limbs s = .next t ∧ t.value z = v ∧ (t.big z).ready = true ∧ t.program = rest ∧
      t.block = (s.setBig z (t.big z)).block ∧ t.faults = s.faults

/-- RDBIG of 30_encoding.md R100: its `L` reads of an initialised register return limbs whose sum is the register's
number, in either phase, and change nothing of the block. -/
def Obligations.ReadBigReturnsTheNumber : Prop :=
  ∀ (s : State) (z : BigName) (name : String) (rest : List HostOp), s.Shaped → (s.big z).ready = true →
    s.program = expandLine s.cfg (.rdbig z name) ++ rest → s.turns = List.replicate s.cfg.limbs .host →
    ∃ t ws, runSteps s.cfg.limbs s = .next t ∧ lastData t s.cfg.limbs = some ws ∧ bigOfData ws = s.value z ∧
      t.program = rest ∧ t.block = s.block ∧ t.faults = s.faults

/-! ## MODEXP, EXTGCD and MODINV -/

/-- 60_exceptions.md R212: MODEXP or MODINV with M = 0 completes with INVALID_MODULUS and writes no output. -/
def Obligations.ZeroModulusIsInvalid : Prop :=
  ∀ (s : State) (i : Instr), (i = .modexp ∨ i = .modinv) → s.value .m = 0 →
    ∃ t, exec i s = .next t ∧ t.failedWith .invalidModulus ∧ ErrCode.invalidModulus.code = 0x02#8 ∧
      sameOutputs s t ∧ t.rng = s.rng ∧ t.attempts = s.attempts

/-- MODEXP (41_modexp.md R130, R131, R134): for `M > 0` it completes and R holds `(A^B) mod M`, except that it holds 0
when `A mod M = 0` (R133, also for B = 0). -/
def Obligations.ModexpComputesThePower : Prop :=
  ∀ s : State, s.Shaped → s.value .m ≠ 0 →
    ∃ t, exec .modexp s = .next t ∧ t.succeeded ∧
      t.value .r = (if s.value .a % s.value .m = 0 then 0 else s.value .a ^ s.value .b % s.value .m) ∧
      t.value .r < s.value .m ∧ t.r.ready = true ∧ t.x = s.x ∧ t.y = s.y ∧ t.status.prime = s.status.prime ∧
      t.status.xneg = s.status.xneg ∧ t.status.yneg = s.status.yneg

/-- 42_gcd_inverse.md R140: `extgcd` is the document's recursion, and its triple satisfies `a*x + b*y = g` with
`g = gcd(a, b)`. -/
def Obligations.ExtgcdFollowsItsRecursion : Prop :=
  ∀ a b : Nat,
    extgcd a 0 = (a, 1, 0) ∧
    (b ≠ 0 → ∀ (g : Nat) (x1 y1 : Int), extgcd b (a % b) = (g, x1, y1) →
      extgcd a b = (g, y1, x1 - ((a / b : Nat) : Int) * y1)) ∧
    (a : Int) * (extgcd a b).2.1 + (b : Int) * (extgcd a b).2.2 = ((extgcd a b).1 : Int) ∧
    (extgcd a b).1 = Nat.gcd a b

/-- EXTGCD (42_gcd_inverse.md R141; 10_state.md R26): it always completes; R holds the gcd, and X, Y with XNEG, YNEG
hold the Bezout coefficients in sign-magnitude form, a zero with sign 0. -/
def Obligations.ExtgcdCommitsBezout : Prop :=
  ∀ s : State, s.Shaped →
    ∃ t, exec .extgcd s = .next t ∧ t.succeeded ∧ t.value .r = Nat.gcd (s.value .a) (s.value .b) ∧
      (if t.status.xneg then -(t.value .x : Int) else (t.value .x : Int)) = (extgcd (s.value .a) (s.value .b)).2.1 ∧
      (if t.status.yneg then -(t.value .y : Int) else (t.value .y : Int)) = (extgcd (s.value .a) (s.value .b)).2.2 ∧
      (s.value .a : Int) * (if t.status.xneg then -(t.value .x : Int) else (t.value .x : Int)) +
        (s.value .b : Int) * (if t.status.yneg then -(t.value .y : Int) else (t.value .y : Int)) =
          (t.value .r : Int) ∧
      (t.value .x = 0 → t.status.xneg = false) ∧ (t.value .y = 0 → t.status.yneg = false) ∧
      t.r.ready = true ∧ t.x.ready = true ∧ t.y.ready = true ∧ t.status.prime = s.status.prime

/-- 42_gcd_inverse.md R142: the bounds of the outputs, for every width; so no command ever records the fault
`CoeffOverflow`. -/
def Obligations.CoefficientsAlwaysFit : Prop :=
  (∀ a b : Nat, (extgcd a b).1 ≤ max a b ∧ (extgcd a b).2.1.natAbs ≤ max 1 b ∧
    (extgcd a b).2.2.natAbs ≤ max 1 a) ∧
  (∀ (s t : State) (i : Instr), s.Shaped → exec i s = .next t → t.faults = s.faults)

/-- 42_gcd_inverse.md R143: the iterative form gives the same triple as the recursion of R140, for all numbers; the
spec had evaluated this below 512 only. -/
def Obligations.IterativeEuclidAgrees : Prop :=
  ∀ a b : Nat, extgcdIter a b = extgcd a b

/-- MODINV (42_gcd_inverse.md R144, R145, R146): for `M > 0` with `gcd(A, M) = 1` it completes with `0 <= R < M` and
`(A * R) mod M = 1 mod M`, and writes nothing but R. -/
def Obligations.ModinvCommitsTheInverse : Prop :=
  ∀ s : State, s.Shaped → s.value .m ≠ 0 → Nat.gcd (s.value .a) (s.value .m) = 1 →
    ∃ t, exec .modinv s = .next t ∧ t.succeeded ∧ t.value .r < s.value .m ∧
      s.value .a * t.value .r % s.value .m = 1 % s.value .m ∧ t.r.ready = true ∧ t.x = s.x ∧ t.y = s.y ∧
      t.status.prime = s.status.prime ∧ t.status.xneg = s.status.xneg ∧ t.status.yneg = s.status.yneg

/-- 60_exceptions.md R213: MODINV with `gcd(A, M) != 1` completes with NO_MODULAR_INVERSE and leaves R unchanged. -/
def Obligations.MissingInverseIsReported : Prop :=
  ∀ s : State, s.value .m ≠ 0 → Nat.gcd (s.value .a) (s.value .m) ≠ 1 →
    ∃ t, exec .modinv s = .next t ∧ t.failedWith .noModularInverse ∧ ErrCode.noModularInverse.code = 0x03#8 ∧
      sameOutputs s t

/-! ## MRTEST -/

/-- 43_primality.md R162: `n - 1 = 2^r * d` with `d` odd and `r >= 1`. -/
def Obligations.DecomposeSplitsOffPowersOfTwo : Prop :=
  ∀ n : Nat, 5 ≤ n → n % 2 = 1 →
    n - 1 = 2 ^ (decompose n).1 * (decompose n).2 ∧ (decompose n).2 % 2 = 1 ∧ 1 ≤ (decompose n).1

/-- MRTEST's cases without a draw (43_primality.md R160, R165): `n <= 1` and even `n > 2` are composite, 2 and 3 prime,
and ROUNDS = 0 passes an odd `n >= 5`. -/
def Obligations.MrtestDrawsNothingInItsEdgeCases : Prop :=
  ∀ s : State,
    ∃ v : Bool,
      (s.value .a ≤ 1 → v = false) ∧ (s.value .a = 2 ∨ s.value .a = 3 → v = true) ∧
      (4 ≤ s.value .a → s.value .a % 2 = 0 → v = false) ∧
      (5 ≤ s.value .a → s.value .a % 2 = 1 → v = true) ∧
      (s.value .a < 5 ∨ s.value .a % 2 = 0 ∨ s.rounds = 0#16 →
        exec .mrtest s = .next
          { s with
            status := { s.status with done := true, err := false, errcode := .none, prime := v }
            phase := .idle
            engine := .empty })

/-- One Miller-Rabin round (43_primality.md R161) in arithmetic terms, both sides: with `n - 1 = 2^r * d`, the witness `a`
passes exactly when `a^d` is 1 modulo `n`, or one of `a^d, a^(2*d), ..., a^(2^(r-1)*d)` is `n - 1` modulo `n`. -/
def Obligations.WitnessRoundFollowsItsRule : Prop :=
  ∀ n a : Nat, 5 ≤ n → n % 2 = 1 → 2 ≤ a → a ≤ n - 2 →
    (witnessPasses n a (decompose n).1 (decompose n).2 = true ↔
      a ^ (decompose n).2 % n = 1 ∨ ∃ j, j < (decompose n).1 ∧ a ^ (2 ^ j * (decompose n).2) % n = n - 1)

/-- MRTEST with draws (43_primality.md R161, R163): when none of the next ROUNDS answers is `fail`, it completes with
success, and PRIME is 1 exactly when every drawn witness passes its round; the first that does not pass ends the
draws. -/
def Obligations.MrtestVerdictFollowsItsWitnesses : Prop :=
  ∀ (s : State) (ws : List Nat) (rest : List RngAnswer), 5 ≤ s.value .a → s.value .a % 2 = 1 →
    ws.length = s.rounds.toNat → (∀ a ∈ ws, 2 ≤ a ∧ a ≤ s.value .a - 2) →
    s.rng.script = ws.map .ok ++ rest →
    ∃ t, exec .mrtest s = .next t ∧ t.succeeded ∧
      t.status.prime =
        ws.all (fun a => witnessPasses (s.value .a) a (decompose (s.value .a)).1 (decompose (s.value .a)).2) ∧
      t.rng.taken = s.rng.taken ∧
      (t.status.prime = true → t.rng.script = rest) ∧
      (t.status.prime = false → ∃ (pre : List Nat) (a : Nat) (post : List Nat), ws = pre ++ a :: post ∧
        t.rng.script = post.map .ok ++ rest ∧
        (∀ p ∈ pre,
          witnessPasses (s.value .a) p (decompose (s.value .a)).1 (decompose (s.value .a)).2 = true) ∧
        witnessPasses (s.value .a) a (decompose (s.value .a)).1 (decompose (s.value .a)).2 = false)

/-- 43_primality.md R164: for a prime, MRTEST gives PRIME = 1 whenever none of its ROUNDS witness draws answers `fail`; 2
and 3 need no draw. A draw that answers `fail` gives RANDOMNESS_FAILURE (60_exceptions.md R215). -/
def Obligations.PrimesAlwaysPassMrtest : Prop :=
  ∀ s : State, (s.value .a).Prime →
    ∃ t, exec .mrtest s = .next t ∧
      (s.value .a < 5 ∨ s.rng.answersOk 2 (s.value .a - 2) s.rounds.toNat = true →
        t.succeeded ∧ t.status.prime = true) ∧
      (5 ≤ s.value .a → s.rng.answersOk 2 (s.value .a - 2) s.rounds.toNat = false →
        t.failedWith .randomnessFailure ∧ sameOutputs s t)

/-! ## The search commands -/

/-- 44_random_search.md R184: RANDPRIME's first step, before any draw, completes with INVALID_BIT_LENGTH for
NUMBITS = 0 or NUMBITS > OPW; otherwise the command stays `BUSY` and goes on to its attempts (40_command_cycle.md
R114). -/
def Obligations.RandprimeChecksItsBitLength : Prop :=
  ∀ s : State, s.engine = .issued →
    (s.numbits.toNat = 0 ∨ s.cfg.opw < s.numbits.toNat →
      ∃ t, exec .randprime s = .next t ∧ t.failedWith .invalidBitLength ∧
        ErrCode.invalidBitLength.code = 0x04#8 ∧ sameOutputs s t ∧ t.rng = s.rng ∧ t.attempts = s.attempts) ∧
    (1 ≤ s.numbits.toNat ∧ s.numbits.toNat ≤ s.cfg.opw → exec .randprime s = .next { s with engine := .searching })

/-- 44_random_search.md R192: RANDCOPRIME's first step, before any draw, completes with INVALID_OPERAND for `M <= 2`;
otherwise the command stays `BUSY` and goes on to its attempts. For `M >= 3` an acceptable candidate exists:
`M - 1`. -/
def Obligations.RandcoprimeChecksItsTotient : Prop :=
  ∀ s : State, s.engine = .issued →
    (s.value .m ≤ 2 →
      ∃ t, exec .randcoprime s = .next t ∧ t.failedWith .invalidOperand ∧ ErrCode.invalidOperand.code = 0x07#8 ∧
        sameOutputs s t ∧ t.rng = s.rng ∧ t.attempts = s.attempts) ∧
    (3 ≤ s.value .m →
      exec .randcoprime s = .next { s with engine := .searching } ∧
      (acceptCoprime (s.value .m) (s.value .m - 1) s.rng).1 = .accept)

/-- RANDPRIME's attempt that succeeds (44_random_search.md R180 to R183, R187): a candidate of exactly NUMBITS bits that
passes Miller-Rabin under the draws taken is committed to R, and ATTEMPTS counts it; for NUMBITS >= 3 it is odd. -/
def Obligations.RandprimeCommitsItsCandidate : Prop :=
  ∀ (s : State) (c : Nat) (g g' : Rng), s.Shaped → s.engine = .searching → s.validated .randprime →
    s.atCeiling = false →
    s.rng.draw (2 ^ (s.numbits.toNat - 1)) (2 ^ s.numbits.toNat - 1) = (.ok c, g) →
    isProbablePrime c s.rounds.toNat g = (.accept, g') →
    ∃ t, exec .randprime s = .next t ∧ t.succeeded ∧ t.value .r = c ∧ t.r.ready = true ∧
      2 ^ (s.numbits.toNat - 1) ≤ c ∧ c ≤ 2 ^ s.numbits.toNat - 1 ∧ (3 ≤ s.numbits.toNat → c % 2 = 1) ∧
      t.attempts = satInc s.attempts ∧ t.rng = g' ∧ t.x = s.x ∧ t.y = s.y ∧ t.status.prime = s.status.prime

/-- RANDCOPRIME's attempt that succeeds (44_random_search.md R190, R191, R194): a drawn candidate of at least 2 and
coprime to M is committed to R. -/
def Obligations.RandcoprimeCommitsItsCandidate : Prop :=
  ∀ (s : State) (c : Nat) (g : Rng), s.Shaped → s.engine = .searching → s.validated .randcoprime →
    s.atCeiling = false → s.rng.draw 0 (s.value .m - 1) = (.ok c, g) →
    2 ≤ c → Nat.gcd c (s.value .m) = 1 →
    ∃ t, exec .randcoprime s = .next t ∧ t.succeeded ∧ t.value .r = c ∧ t.r.ready = true ∧ c < s.value .m ∧
      t.attempts = satInc s.attempts ∧ t.rng = g ∧ t.x = s.x ∧ t.y = s.y ∧ t.status.prime = s.status.prime

/-- 60_exceptions.md R216: at its ceiling check with `LIMIT = k > 0` and `ATTEMPTS = k`, a search command fails with
ATTEMPTS_EXHAUSTED, without a draw, and ATTEMPTS reads `k`. -/
def Obligations.CeilingEndsTheSearch : Prop :=
  ∀ (s : State) (i : Instr), isSearch i = true → s.engine = .searching → s.limit ≠ 0#32 → s.attempts = s.limit →
    ∃ t, exec i s = .next t ∧ t.failedWith .attemptsExhausted ∧ ErrCode.attemptsExhausted.code = 0x06#8 ∧
      sameOutputs s t ∧ t.attempts = s.limit ∧ t.rng = s.rng

/-- 60_exceptions.md R215: a draw that answers `fail` (a witness draw of MRTEST after fewer than ROUNDS witnesses that
pass, a candidate or witness draw of RANDPRIME, a candidate draw of RANDCOPRIME) aborts the command at that draw with
RANDOMNESS_FAILURE and no output; ATTEMPTS includes the attempt in which the draw failed. -/
def Obligations.FailedDrawAbortsTheCommand : Prop :=
  ErrCode.randomnessFailure.code = 0x05#8 ∧
  (∀ (s : State) (ws : List Nat) (rest : List RngAnswer), 5 ≤ s.value .a → s.value .a % 2 = 1 →
    ws.length < s.rounds.toNat →
    (∀ a ∈ ws, 2 ≤ a ∧ a ≤ s.value .a - 2 ∧
      witnessPasses (s.value .a) a (decompose (s.value .a)).1 (decompose (s.value .a)).2 = true) →
    s.rng.script = ws.map .ok ++ .fail :: rest →
    ∃ t, exec .mrtest s = .next t ∧ t.failedWith .randomnessFailure ∧ sameOutputs s t ∧ t.rng.script = rest) ∧
  (∀ (s : State) (i : Instr) (rest : List RngAnswer), isSearch i = true → s.engine = .searching →
    s.atCeiling = false → s.rng.script = .fail :: rest →
    ∃ t, exec i s = .next t ∧ t.failedWith .randomnessFailure ∧ sameOutputs s t ∧
      t.attempts = (if s.attempts = 0xFFFFFFFF#32 then 0xFFFFFFFF#32 else s.attempts + 1#32) ∧
      t.rng.script = rest) ∧
  (∀ (s : State) (c : Nat) (g : Rng), s.engine = .searching → s.atCeiling = false →
    s.rng.draw (2 ^ (s.numbits.toNat - 1)) (2 ^ s.numbits.toNat - 1) = (.ok c, g) →
    (isProbablePrime c s.rounds.toNat g).1 = .drawFailed →
    ∃ t, exec .randprime s = .next t ∧ t.failedWith .randomnessFailure ∧ sameOutputs s t ∧
      t.attempts = (if s.attempts = 0xFFFFFFFF#32 then 0xFFFFFFFF#32 else s.attempts + 1#32) ∧
      t.rng = (isProbablePrime c s.rounds.toNat g).2)

/-- 40_command_cycle.md R114: an attempt whose candidate is rejected stays `BUSY` with ATTEMPTS one higher (saturating,
10_state.md R37) and every output as before. -/
def Obligations.RejectedCandidateStaysBusy : Prop :=
  ∀ (s : State) (c : Nat) (g : Rng), s.engine = .searching → s.atCeiling = false →
    (s.rng.draw (2 ^ (s.numbits.toNat - 1)) (2 ^ s.numbits.toNat - 1) = (.ok c, g) →
      (isProbablePrime c s.rounds.toNat g).1 = .reject →
      exec .randprime s = .next
        { s with
          attempts := if s.attempts = 0xFFFFFFFF#32 then 0xFFFFFFFF#32 else s.attempts + 1#32
          rng := (isProbablePrime c s.rounds.toNat g).2 }) ∧
    (s.rng.draw 0 (s.value .m - 1) = (.ok c, g) → (c < 2 ∨ Nat.gcd c (s.value .m) ≠ 1) →
      exec .randcoprime s = .next
        { s with
          attempts := if s.attempts = 0xFFFFFFFF#32 then 0xFFFFFFFF#32 else s.attempts + 1#32
          rng := g })

/-- 00_scope.md R15: a draw answers `ok v` only inside the requested range, and every `v` of the range and `fail` can
be the answer. -/
def Obligations.DrawsStayInRange : Prop :=
  ∀ (lo hi : Nat), lo ≤ hi →
    (∀ (g g' : Rng) (v : Nat), g.draw lo hi = (.ok v, g') → lo ≤ v ∧ v ≤ hi) ∧
    (∀ v, lo ≤ v → v ≤ hi → ∃ g : Rng, (g.draw lo hi).1 = .ok v) ∧ (∃ g : Rng, (g.draw lo hi).1 = .fail)

/-! ## Frames and what steers a command -/

/-- 40_command_cycle.md R118 with the output column of 30_encoding.md R97: no command step changes A, B, M, ROUNDS,
NUMBITS, LIMIT, CTRL, ID, HWCFG or CMD, and each command changes only the outputs it lists, ATTEMPTS for the search
commands, and BUSY, DONE, ERR and ERRCODE. The commands without a draw leave the RNG alone. -/
def Obligations.CommandsChangeOnlyTheirOutputs : Prop :=
  ∀ (i : Instr) (s t : State), exec i s = .next t →
    sameInputs s t ∧ sameHost s t ∧ (s.Shaped → t.faults = s.faults) ∧
    t.faults.busFault = s.faults.busFault ∧ t.faults.uninitRead = s.faults.uninitRead ∧
    (i = .mrtest → t.r = s.r) ∧
    (i ≠ .extgcd → t.x = s.x ∧ t.y = s.y ∧ t.status.xneg = s.status.xneg ∧ t.status.yneg = s.status.yneg) ∧
    (i ≠ .mrtest → t.status.prime = s.status.prime) ∧
    (isSearch i = false → t.attempts = s.attempts) ∧
    (i = .modexp ∨ i = .extgcd ∨ i = .modinv → t.rng = s.rng)

/-- The frame over the window, the block's one address space (20_memory.md R60, R64): after a command step every word
reads as before, but for STATUS (0x00C), ATTEMPTS (0x020) of a search command, R's region (0x400 to 0x4FF) unless the
command is MRTEST, and the regions of X and Y (0x500 to 0x6FF) for EXTGCD. -/
def Obligations.CommandsLeaveTheRestOfTheWindow : Prop :=
  ∀ (i : Instr) (s t : State) (off : Offset), exec i s = .next t →
    off ≠ 0x00C#12 → (isSearch i = true → off ≠ 0x020#12) →
    (i ≠ .mrtest → ¬ (0x400 ≤ off.toNat ∧ off.toNat ≤ 0x4FF)) →
    (i = .extgcd → ¬ (0x500 ≤ off.toNat ∧ off.toNat ≤ 0x6FF)) →
    t.windowWord off = s.windowWord off

/-- 40_command_cycle.md R116: an error completion writes no output; DONE and ERR are 1 and ERRCODE is not 0. In an
attempt of a search, ATTEMPTS was counted before (44_random_search.md R183). -/
def Obligations.ErrorCompletionWritesNoOutput : Prop :=
  ∀ (i : Instr) (s t : State) (w : Word), s.phase = .busy w → exec i s = .next t → t.phase = .idle →
    t.status.done = true ∧
    (t.status.err = true →
      t.status.errcode ≠ .none ∧ sameOutputs s t ∧ (t.attempts = s.attempts ∨ t.attempts = satInc s.attempts)) ∧
    (t.status.err = false → t.status.errcode = .none)

/-- 10_state.md R28: no command reads any STATUS flag. Two states that differ only in STATUS run a command alike. A
completion gives both the same DONE, ERR and ERRCODE, a successful MRTEST the same PRIME, EXTGCD the same XNEG and YNEG;
every flag the command does not write stays each state's own. A step completes exactly when it leaves the engine empty
(10_state.md R38). -/
def Obligations.StatusFlagsDoNotSteerCommands : Prop :=
  ∀ (i : Instr) (s : State) (st : Status),
    ∃ (t : State) (st' : Status),
      exec i s = .next t ∧ exec i { s with status := st } = .next { t with status := st' } ∧
      (t.engine = .empty →
        st'.done = t.status.done ∧ st'.err = t.status.err ∧ st'.errcode = t.status.errcode) ∧
      (t.engine ≠ .empty → st' = st ∧ t.status = s.status) ∧
      (i = .mrtest → t.status.err = false → st'.prime = t.status.prime) ∧
      (i ≠ .mrtest ∨ t.status.err = true → st'.prime = st.prime ∧ t.status.prime = s.status.prime) ∧
      (i = .extgcd → st'.xneg = t.status.xneg ∧ st'.yneg = t.status.yneg) ∧
      (i ≠ .extgcd → st'.xneg = st.xneg ∧ st'.yneg = st.yneg ∧ t.status.xneg = s.status.xneg ∧
        t.status.yneg = s.status.yneg)

/-- 30_encoding.md R97: a command reads no operand register its row does not list, not even one that is UNINIT.
Replacing such a register changes nothing but that register. -/
def Obligations.UnlistedOperandsDoNotSteerCommands : Prop :=
  ∀ (i : Instr) (s : State) (z : BigName) (v : BigReg), hostWritable z = true → z ∉ readsOf i →
    ∃ t, exec i s = .next t ∧ exec i (s.setBig z v) = .next (t.setBig z v)

/-! ## Whole-machine rules -/

/-- The invariant holds right after reset, in every allowed configuration (10_state.md R41). That the reset state is final
(40_command_cycle.md R125) rests on the model's choice that no fault is recorded and no program is placed at reset
(notes/assumptions/9.md). -/
def Obligations.InvariantHoldsAtReset : Prop :=
  ∀ c : Config, c.wellFormed = true → (State.resetWith c).Inv ∧ (State.resetWith c).final = true

/-- Every step of every agent keeps the invariant `State.Inv` of Safety.lean: the registers' shape, the uniform marks
of result registers, CMD and the flags while `BUSY`, ERR against ERRCODE, the signs of zero, validated searches and
their ceiling, and that no result was ever too wide for its register. -/
def Obligations.EveryStepKeepsTheInvariant : Prop :=
  ∀ s t : State, s.Inv → step s = .next t → t.Inv

/-- 20_memory.md R79 and R80: a step that begins and ends `BUSY` runs the same command word on the same operands, and
R, X, Y, PRIME, XNEG and YNEG keep their values from before the command; ATTEMPTS never decreases. -/
def Obligations.BusyKeepsOldOutputs : Prop :=
  ∀ (s t : State) (w w' : Word), s.phase = .busy w → step s = .next t → t.phase = .busy w' →
    w' = w ∧ sameOutputs s t ∧ s.attempts.toNat ≤ t.attempts.toNat ∧
    t.a = s.a ∧ t.b = s.b ∧ t.m = s.m ∧ t.rounds = s.rounds ∧ t.numbits = s.numbits ∧ t.limit = s.limit

/-- 10_state.md R23, R24 and R28: only a successful commit, or a hardware reset, changes a result register or a
verdict or sign flag. A step that changes one of them is the reset input's, or goes from `BUSY` to `IDLE` with DONE = 1
and ERR = 0; X, Y and the signs change only under EXTGCD, PRIME only under MRTEST. -/
def Obligations.OnlyCommitsWriteOutputs : Prop :=
  ∀ s t : State, step s = .next t →
    sameOutputs s t ∨ s.turns.head? = some .reset ∨
    (∃ w i, s.phase = .busy w ∧ decodeWord w = .ok i ∧ t.succeeded ∧
      (i = .mrtest → t.r = s.r) ∧
      (i ≠ .extgcd → t.x = s.x ∧ t.y = s.y ∧ t.status.xneg = s.status.xneg ∧ t.status.yneg = s.status.yneg) ∧
      (i ≠ .mrtest → t.status.prime = s.status.prime))

/-- No step stops the machine: every state has a next state. The faults of 60_exceptions.md R224 are records after which
the machine goes on. That the step is one function of the state is the model's (notes/assumptions/7.md, 13.md). -/
def Obligations.EveryStateHasANextState : Prop :=
  ∀ s : State, ∃ t, step s = .next t

/-- 60_exceptions.md R224: no step clears a recorded fault; and a step that records `BusFault` answered `BusError` and
changed nothing of the block (20_memory.md R69). -/
def Obligations.RecordedFaultsStay : Prop :=
  ∀ s t : State, step s = .next t →
    (s.faults.busFault = true → t.faults.busFault = true) ∧
    (s.faults.uninitRead = true → t.faults.uninitRead = true) ∧
    (s.faults.coeffOverflow = true → t.faults.coeffOverflow = true) ∧
    (s.faults.busFault = false → t.faults.busFault = true →
      t.answers = .busError :: s.answers ∧ t.block = s.block)

/-- 40_command_cycle.md R121: from a state that meets the invariant, an illegal command, MODEXP, EXTGCD, MODINV and
MRTEST complete in one engine step. -/
def Obligations.OneStepCommandsComplete : Prop :=
  ∀ (s : State) (w : Word), s.Inv → s.phase = .busy w → s.engine ≠ .held →
    decodeWord w ≠ .ok .randprime → decodeWord w ≠ .ok .randcoprime →
    ∃ t, s.engineStep = .next t ∧ t.phase = .idle ∧ t.status.done = true

/-- 40_command_cycle.md R122: with `LIMIT = k > 0` a search command completes, whatever the draws, after at most `k`
attempt steps plus the validation step and one final ceiling step. -/
def Obligations.BoundedSearchCompletes : Prop :=
  ∀ (s : State) (w : Word) (i : Instr), s.Inv → s.phase = .busy w → decodeWord w = .ok i → isSearch i = true →
    s.engine ≠ .held → s.limit ≠ 0#32 →
    ∃ n t, n ≤ s.limit.toNat + 2 ∧ runSteps n { s with turns := List.replicate n .engine } = .next t ∧
      t.phase = .idle ∧ t.status.done = true

/-- 40_command_cycle.md R122 and R123, 44_random_search.md R186: RANDPRIME with NUMBITS = 1 and LIMIT = 0 is still
`BUSY` after any number of attempts whose draws do not fail. -/
def Obligations.OneBitSearchNeverCompletes : Prop :=
  ∀ (s : State) (n : Nat) (vs : List Nat), s.phase = .busy (encode .randprime) → s.engine = .searching →
    s.numbits = 1#16 → s.limit = 0#32 → s.rng.script = vs.map .ok → vs.length = n →
    s.turns = List.replicate n .engine →
    ∃ t, runSteps n s = .next t ∧ t.phase = .busy (encode .randprime) ∧ sameOutputs s t

/-- 44_random_search.md R194: with the `e` that RANDCOPRIME committed in A and M unchanged, MODINV completes with
success, never with NO_MODULAR_INVERSE. -/
def Obligations.SelectedExponentHasAnInverse : Prop :=
  ∀ s t u : State, s.Shaped → s.engine = .searching → s.validated .randcoprime →
    exec .randcoprime s = .next t → t.succeeded → u.Shaped → u.value .a = t.value .r →
    u.value .m = s.value .m →
    ∃ v, exec .modinv u = .next v ∧ v.succeeded ∧ v.value .r < u.value .m ∧
      u.value .a * v.value .r % u.value .m = 1

/-- The round trip of 41_modexp.md R134: for `n = p*q` with distinct primes and `e*d = 1 mod (p-1)*(q-1)`, a MODEXP
with exponent `e` and then one with exponent `d` on its result give back every `m < n`. The keys are the host's
(00_scope.md R3). -/
def Obligations.RsaRoundTrip : Prop :=
  ∀ (p q e d : Nat) (s t u : State), p.Prime → q.Prime → p ≠ q → e * d % ((p - 1) * (q - 1)) = 1 →
    s.Shaped → s.value .m = p * q → s.value .a < p * q → s.value .b = e → exec .modexp s = .next t →
    u.Shaped → u.value .m = p * q → u.value .a = t.value .r → u.value .b = d →
    ∃ v, exec .modexp u = .next v ∧ v.succeeded ∧ v.value .r = s.value .a
end

