-- ==== Sys2Proof/Laws/State.lean ====
section
/-! SUPPORT. One lemma per field per update of State, each true by `rfl`, so that no proof unfolds a record update. -/

namespace Sys2Proof.Machine

open Sys2Proof

variable (s : State)


@[simp] theorem State.completeOk_cfg (o : Outputs) : (s.completeOk o).cfg = s.cfg := rfl
@[simp] theorem State.completeOk_a (o : Outputs) : (s.completeOk o).a = s.a := rfl
@[simp] theorem State.completeOk_b (o : Outputs) : (s.completeOk o).b = s.b := rfl
@[simp] theorem State.completeOk_m (o : Outputs) : (s.completeOk o).m = s.m := rfl
@[simp] theorem State.completeOk_r (o : Outputs) : (s.completeOk o).r = commitBig s.cfg.limbs o.r s.r := rfl
@[simp] theorem State.completeOk_x (o : Outputs) : (s.completeOk o).x = commitBig s.cfg.limbs o.x s.x := rfl
@[simp] theorem State.completeOk_y (o : Outputs) : (s.completeOk o).y = commitBig s.cfg.limbs o.y s.y := rfl
@[simp] theorem State.completeOk_irqEn (o : Outputs) : (s.completeOk o).irqEn = s.irqEn := rfl
@[simp] theorem State.completeOk_status (o : Outputs) : (s.completeOk o).status = s.status.atCommit o.prime o.xneg o.yneg := rfl
@[simp] theorem State.completeOk_cmd (o : Outputs) : (s.completeOk o).cmd = s.cmd := rfl
@[simp] theorem State.completeOk_rounds (o : Outputs) : (s.completeOk o).rounds = s.rounds := rfl
@[simp] theorem State.completeOk_numbits (o : Outputs) : (s.completeOk o).numbits = s.numbits := rfl
@[simp] theorem State.completeOk_limit (o : Outputs) : (s.completeOk o).limit = s.limit := rfl
@[simp] theorem State.completeOk_attempts (o : Outputs) : (s.completeOk o).attempts = s.attempts := rfl
@[simp] theorem State.completeOk_phase (o : Outputs) : (s.completeOk o).phase = .idle := rfl
@[simp] theorem State.completeOk_engine (o : Outputs) : (s.completeOk o).engine = .empty := rfl
@[simp] theorem State.completeOk_faults (o : Outputs) : (s.completeOk o).faults = s.faults := rfl
@[simp] theorem State.completeOk_answers (o : Outputs) : (s.completeOk o).answers = s.answers := rfl
@[simp] theorem State.completeOk_program (o : Outputs) : (s.completeOk o).program = s.program := rfl
@[simp] theorem State.completeOk_turns (o : Outputs) : (s.completeOk o).turns = s.turns := rfl
@[simp] theorem State.completeOk_rng (o : Outputs) : (s.completeOk o).rng = s.rng := rfl
@[simp] theorem State.completeOk_freeReads (o : Outputs) : (s.completeOk o).freeReads = s.freeReads := rfl

@[simp] theorem State.completeErr_cfg (code : ErrCode) : (s.completeErr code).cfg = s.cfg := rfl
@[simp] theorem State.completeErr_a (code : ErrCode) : (s.completeErr code).a = s.a := rfl
@[simp] theorem State.completeErr_b (code : ErrCode) : (s.completeErr code).b = s.b := rfl
@[simp] theorem State.completeErr_m (code : ErrCode) : (s.completeErr code).m = s.m := rfl
@[simp] theorem State.completeErr_r (code : ErrCode) : (s.completeErr code).r = s.r := rfl
@[simp] theorem State.completeErr_x (code : ErrCode) : (s.completeErr code).x = s.x := rfl
@[simp] theorem State.completeErr_y (code : ErrCode) : (s.completeErr code).y = s.y := rfl
@[simp] theorem State.completeErr_irqEn (code : ErrCode) : (s.completeErr code).irqEn = s.irqEn := rfl
@[simp] theorem State.completeErr_status (code : ErrCode) : (s.completeErr code).status = s.status.atError code := rfl
@[simp] theorem State.completeErr_cmd (code : ErrCode) : (s.completeErr code).cmd = s.cmd := rfl
@[simp] theorem State.completeErr_rounds (code : ErrCode) : (s.completeErr code).rounds = s.rounds := rfl
@[simp] theorem State.completeErr_numbits (code : ErrCode) : (s.completeErr code).numbits = s.numbits := rfl
@[simp] theorem State.completeErr_limit (code : ErrCode) : (s.completeErr code).limit = s.limit := rfl
@[simp] theorem State.completeErr_attempts (code : ErrCode) : (s.completeErr code).attempts = s.attempts := rfl
@[simp] theorem State.completeErr_phase (code : ErrCode) : (s.completeErr code).phase = .idle := rfl
@[simp] theorem State.completeErr_engine (code : ErrCode) : (s.completeErr code).engine = .empty := rfl
@[simp] theorem State.completeErr_faults (code : ErrCode) : (s.completeErr code).faults = s.faults := rfl
@[simp] theorem State.completeErr_answers (code : ErrCode) : (s.completeErr code).answers = s.answers := rfl
@[simp] theorem State.completeErr_program (code : ErrCode) : (s.completeErr code).program = s.program := rfl
@[simp] theorem State.completeErr_turns (code : ErrCode) : (s.completeErr code).turns = s.turns := rfl
@[simp] theorem State.completeErr_rng (code : ErrCode) : (s.completeErr code).rng = s.rng := rfl
@[simp] theorem State.completeErr_freeReads (code : ErrCode) : (s.completeErr code).freeReads = s.freeReads := rfl

@[simp] theorem State.checkFit_cfg (fits : Bool) : (s.checkFit fits).cfg = s.cfg := rfl
@[simp] theorem State.checkFit_a (fits : Bool) : (s.checkFit fits).a = s.a := rfl
@[simp] theorem State.checkFit_b (fits : Bool) : (s.checkFit fits).b = s.b := rfl
@[simp] theorem State.checkFit_m (fits : Bool) : (s.checkFit fits).m = s.m := rfl
@[simp] theorem State.checkFit_r (fits : Bool) : (s.checkFit fits).r = s.r := rfl
@[simp] theorem State.checkFit_x (fits : Bool) : (s.checkFit fits).x = s.x := rfl
@[simp] theorem State.checkFit_y (fits : Bool) : (s.checkFit fits).y = s.y := rfl
@[simp] theorem State.checkFit_irqEn (fits : Bool) : (s.checkFit fits).irqEn = s.irqEn := rfl
@[simp] theorem State.checkFit_status (fits : Bool) : (s.checkFit fits).status = s.status := rfl
@[simp] theorem State.checkFit_cmd (fits : Bool) : (s.checkFit fits).cmd = s.cmd := rfl
@[simp] theorem State.checkFit_rounds (fits : Bool) : (s.checkFit fits).rounds = s.rounds := rfl
@[simp] theorem State.checkFit_numbits (fits : Bool) : (s.checkFit fits).numbits = s.numbits := rfl
@[simp] theorem State.checkFit_limit (fits : Bool) : (s.checkFit fits).limit = s.limit := rfl
@[simp] theorem State.checkFit_attempts (fits : Bool) : (s.checkFit fits).attempts = s.attempts := rfl
@[simp] theorem State.checkFit_phase (fits : Bool) : (s.checkFit fits).phase = s.phase := rfl
@[simp] theorem State.checkFit_engine (fits : Bool) : (s.checkFit fits).engine = s.engine := rfl
@[simp] theorem State.checkFit_faults (fits : Bool) : (s.checkFit fits).faults = { s.faults with coeffOverflow := s.faults.coeffOverflow || !fits } := rfl
@[simp] theorem State.checkFit_answers (fits : Bool) : (s.checkFit fits).answers = s.answers := rfl
@[simp] theorem State.checkFit_program (fits : Bool) : (s.checkFit fits).program = s.program := rfl
@[simp] theorem State.checkFit_turns (fits : Bool) : (s.checkFit fits).turns = s.turns := rfl
@[simp] theorem State.checkFit_rng (fits : Bool) : (s.checkFit fits).rng = s.rng := rfl
@[simp] theorem State.checkFit_freeReads (fits : Bool) : (s.checkFit fits).freeReads = s.freeReads := rfl

@[simp] theorem State.writeStatus_cfg (v : Word) : (s.writeStatus v).cfg = s.cfg := rfl
@[simp] theorem State.writeStatus_a (v : Word) : (s.writeStatus v).a = s.a := rfl
@[simp] theorem State.writeStatus_b (v : Word) : (s.writeStatus v).b = s.b := rfl
@[simp] theorem State.writeStatus_m (v : Word) : (s.writeStatus v).m = s.m := rfl
@[simp] theorem State.writeStatus_r (v : Word) : (s.writeStatus v).r = s.r := rfl
@[simp] theorem State.writeStatus_x (v : Word) : (s.writeStatus v).x = s.x := rfl
@[simp] theorem State.writeStatus_y (v : Word) : (s.writeStatus v).y = s.y := rfl
@[simp] theorem State.writeStatus_irqEn (v : Word) : (s.writeStatus v).irqEn = s.irqEn := rfl
@[simp] theorem State.writeStatus_status (v : Word) : (s.writeStatus v).status = s.status.atWrite v := rfl
@[simp] theorem State.writeStatus_cmd (v : Word) : (s.writeStatus v).cmd = s.cmd := rfl
@[simp] theorem State.writeStatus_rounds (v : Word) : (s.writeStatus v).rounds = s.rounds := rfl
@[simp] theorem State.writeStatus_numbits (v : Word) : (s.writeStatus v).numbits = s.numbits := rfl
@[simp] theorem State.writeStatus_limit (v : Word) : (s.writeStatus v).limit = s.limit := rfl
@[simp] theorem State.writeStatus_attempts (v : Word) : (s.writeStatus v).attempts = s.attempts := rfl
@[simp] theorem State.writeStatus_phase (v : Word) : (s.writeStatus v).phase = s.phase := rfl
@[simp] theorem State.writeStatus_engine (v : Word) : (s.writeStatus v).engine = s.engine := rfl
@[simp] theorem State.writeStatus_faults (v : Word) : (s.writeStatus v).faults = s.faults := rfl
@[simp] theorem State.writeStatus_answers (v : Word) : (s.writeStatus v).answers = s.answers := rfl
@[simp] theorem State.writeStatus_program (v : Word) : (s.writeStatus v).program = s.program := rfl
@[simp] theorem State.writeStatus_turns (v : Word) : (s.writeStatus v).turns = s.turns := rfl
@[simp] theorem State.writeStatus_rng (v : Word) : (s.writeStatus v).rng = s.rng := rfl
@[simp] theorem State.writeStatus_freeReads (v : Word) : (s.writeStatus v).freeReads = s.freeReads := rfl

@[simp] theorem State.startCommand_cfg (w : Word) : (s.startCommand w).cfg = s.cfg := rfl
@[simp] theorem State.startCommand_a (w : Word) : (s.startCommand w).a = s.a := rfl
@[simp] theorem State.startCommand_b (w : Word) : (s.startCommand w).b = s.b := rfl
@[simp] theorem State.startCommand_m (w : Word) : (s.startCommand w).m = s.m := rfl
@[simp] theorem State.startCommand_r (w : Word) : (s.startCommand w).r = s.r := rfl
@[simp] theorem State.startCommand_x (w : Word) : (s.startCommand w).x = s.x := rfl
@[simp] theorem State.startCommand_y (w : Word) : (s.startCommand w).y = s.y := rfl
@[simp] theorem State.startCommand_irqEn (w : Word) : (s.startCommand w).irqEn = s.irqEn := rfl
@[simp] theorem State.startCommand_status (w : Word) : (s.startCommand w).status = s.status.atIssue := rfl
@[simp] theorem State.startCommand_cmd (w : Word) : (s.startCommand w).cmd = w := rfl
@[simp] theorem State.startCommand_rounds (w : Word) : (s.startCommand w).rounds = s.rounds := rfl
@[simp] theorem State.startCommand_numbits (w : Word) : (s.startCommand w).numbits = s.numbits := rfl
@[simp] theorem State.startCommand_limit (w : Word) : (s.startCommand w).limit = s.limit := rfl
@[simp] theorem State.startCommand_phase (w : Word) : (s.startCommand w).phase = .busy w := rfl
@[simp] theorem State.startCommand_engine (w : Word) : (s.startCommand w).engine = .issued := rfl
@[simp] theorem State.startCommand_faults (w : Word) : (s.startCommand w).faults = s.faults := rfl
@[simp] theorem State.startCommand_answers (w : Word) : (s.startCommand w).answers = s.answers := rfl
@[simp] theorem State.startCommand_program (w : Word) : (s.startCommand w).program = s.program := rfl
@[simp] theorem State.startCommand_turns (w : Word) : (s.startCommand w).turns = s.turns := rfl
@[simp] theorem State.startCommand_rng (w : Word) : (s.startCommand w).rng = s.rng := rfl
@[simp] theorem State.startCommand_freeReads (w : Word) : (s.startCommand w).freeReads = s.freeReads := rfl

@[simp] theorem State.softReset_cfg : (s.softReset).cfg = s.cfg := rfl
@[simp] theorem State.softReset_a : (s.softReset).a = s.a := rfl
@[simp] theorem State.softReset_b : (s.softReset).b = s.b := rfl
@[simp] theorem State.softReset_m : (s.softReset).m = s.m := rfl
@[simp] theorem State.softReset_r : (s.softReset).r = s.r := rfl
@[simp] theorem State.softReset_x : (s.softReset).x = s.x := rfl
@[simp] theorem State.softReset_y : (s.softReset).y = s.y := rfl
@[simp] theorem State.softReset_irqEn : (s.softReset).irqEn = false := rfl
@[simp] theorem State.softReset_status : (s.softReset).status = s.status.atSoftReset := rfl
@[simp] theorem State.softReset_cmd : (s.softReset).cmd = 0#32 := rfl
@[simp] theorem State.softReset_rounds : (s.softReset).rounds = roundsReset := rfl
@[simp] theorem State.softReset_numbits : (s.softReset).numbits = numbitsReset := rfl
@[simp] theorem State.softReset_limit : (s.softReset).limit = 0#32 := rfl
@[simp] theorem State.softReset_attempts : (s.softReset).attempts = 0#32 := rfl
@[simp] theorem State.softReset_phase : (s.softReset).phase = .idle := rfl
@[simp] theorem State.softReset_engine : (s.softReset).engine = .empty := rfl
@[simp] theorem State.softReset_faults : (s.softReset).faults = s.faults := rfl
@[simp] theorem State.softReset_answers : (s.softReset).answers = s.answers := rfl
@[simp] theorem State.softReset_program : (s.softReset).program = s.program := rfl
@[simp] theorem State.softReset_turns : (s.softReset).turns = s.turns := rfl
@[simp] theorem State.softReset_rng : (s.softReset).rng = s.rng := rfl
@[simp] theorem State.softReset_freeReads : (s.softReset).freeReads = s.freeReads := rfl

@[simp] theorem State.hardReset_cfg : (s.hardReset).cfg = s.cfg := rfl
@[simp] theorem State.hardReset_a : (s.hardReset).a = BigReg.uninit s.cfg.limbs := rfl
@[simp] theorem State.hardReset_b : (s.hardReset).b = BigReg.uninit s.cfg.limbs := rfl
@[simp] theorem State.hardReset_m : (s.hardReset).m = BigReg.uninit s.cfg.limbs := rfl
@[simp] theorem State.hardReset_r : (s.hardReset).r = BigReg.uninit s.cfg.limbs := rfl
@[simp] theorem State.hardReset_x : (s.hardReset).x = BigReg.uninit s.cfg.limbs := rfl
@[simp] theorem State.hardReset_y : (s.hardReset).y = BigReg.uninit s.cfg.limbs := rfl
@[simp] theorem State.hardReset_irqEn : (s.hardReset).irqEn = false := rfl
@[simp] theorem State.hardReset_status : (s.hardReset).status = Status.reset := rfl
@[simp] theorem State.hardReset_cmd : (s.hardReset).cmd = 0#32 := rfl
@[simp] theorem State.hardReset_rounds : (s.hardReset).rounds = roundsReset := rfl
@[simp] theorem State.hardReset_numbits : (s.hardReset).numbits = numbitsReset := rfl
@[simp] theorem State.hardReset_limit : (s.hardReset).limit = 0#32 := rfl
@[simp] theorem State.hardReset_attempts : (s.hardReset).attempts = 0#32 := rfl
@[simp] theorem State.hardReset_phase : (s.hardReset).phase = .idle := rfl
@[simp] theorem State.hardReset_engine : (s.hardReset).engine = .empty := rfl
@[simp] theorem State.hardReset_faults : (s.hardReset).faults = s.faults := rfl
@[simp] theorem State.hardReset_answers : (s.hardReset).answers = s.answers := rfl
@[simp] theorem State.hardReset_program : (s.hardReset).program = s.program := rfl
@[simp] theorem State.hardReset_turns : (s.hardReset).turns = s.turns := rfl
@[simp] theorem State.hardReset_rng : (s.hardReset).rng = s.rng := rfl
@[simp] theorem State.hardReset_freeReads : (s.hardReset).freeReads = s.freeReads := rfl

@[simp] theorem State.beginSearch_cfg : (s.beginSearch).cfg = s.cfg := rfl
@[simp] theorem State.beginSearch_a : (s.beginSearch).a = s.a := rfl
@[simp] theorem State.beginSearch_b : (s.beginSearch).b = s.b := rfl
@[simp] theorem State.beginSearch_m : (s.beginSearch).m = s.m := rfl
@[simp] theorem State.beginSearch_r : (s.beginSearch).r = s.r := rfl
@[simp] theorem State.beginSearch_x : (s.beginSearch).x = s.x := rfl
@[simp] theorem State.beginSearch_y : (s.beginSearch).y = s.y := rfl
@[simp] theorem State.beginSearch_irqEn : (s.beginSearch).irqEn = s.irqEn := rfl
@[simp] theorem State.beginSearch_status : (s.beginSearch).status = s.status := rfl
@[simp] theorem State.beginSearch_cmd : (s.beginSearch).cmd = s.cmd := rfl
@[simp] theorem State.beginSearch_rounds : (s.beginSearch).rounds = s.rounds := rfl
@[simp] theorem State.beginSearch_numbits : (s.beginSearch).numbits = s.numbits := rfl
@[simp] theorem State.beginSearch_limit : (s.beginSearch).limit = s.limit := rfl
@[simp] theorem State.beginSearch_attempts : (s.beginSearch).attempts = s.attempts := rfl
@[simp] theorem State.beginSearch_phase : (s.beginSearch).phase = s.phase := rfl
@[simp] theorem State.beginSearch_engine : (s.beginSearch).engine = .searching := rfl
@[simp] theorem State.beginSearch_faults : (s.beginSearch).faults = s.faults := rfl
@[simp] theorem State.beginSearch_answers : (s.beginSearch).answers = s.answers := rfl
@[simp] theorem State.beginSearch_program : (s.beginSearch).program = s.program := rfl
@[simp] theorem State.beginSearch_turns : (s.beginSearch).turns = s.turns := rfl
@[simp] theorem State.beginSearch_rng : (s.beginSearch).rng = s.rng := rfl
@[simp] theorem State.beginSearch_freeReads : (s.beginSearch).freeReads = s.freeReads := rfl

@[simp] theorem State.answer_cfg (ans : Answer) : (s.answer ans).cfg = s.cfg := rfl
@[simp] theorem State.answer_a (ans : Answer) : (s.answer ans).a = s.a := rfl
@[simp] theorem State.answer_b (ans : Answer) : (s.answer ans).b = s.b := rfl
@[simp] theorem State.answer_m (ans : Answer) : (s.answer ans).m = s.m := rfl
@[simp] theorem State.answer_r (ans : Answer) : (s.answer ans).r = s.r := rfl
@[simp] theorem State.answer_x (ans : Answer) : (s.answer ans).x = s.x := rfl
@[simp] theorem State.answer_y (ans : Answer) : (s.answer ans).y = s.y := rfl
@[simp] theorem State.answer_irqEn (ans : Answer) : (s.answer ans).irqEn = s.irqEn := rfl
@[simp] theorem State.answer_status (ans : Answer) : (s.answer ans).status = s.status := rfl
@[simp] theorem State.answer_cmd (ans : Answer) : (s.answer ans).cmd = s.cmd := rfl
@[simp] theorem State.answer_rounds (ans : Answer) : (s.answer ans).rounds = s.rounds := rfl
@[simp] theorem State.answer_numbits (ans : Answer) : (s.answer ans).numbits = s.numbits := rfl
@[simp] theorem State.answer_limit (ans : Answer) : (s.answer ans).limit = s.limit := rfl
@[simp] theorem State.answer_attempts (ans : Answer) : (s.answer ans).attempts = s.attempts := rfl
@[simp] theorem State.answer_phase (ans : Answer) : (s.answer ans).phase = s.phase := rfl
@[simp] theorem State.answer_engine (ans : Answer) : (s.answer ans).engine = s.engine := rfl
@[simp] theorem State.answer_faults (ans : Answer) : (s.answer ans).faults = s.faults := rfl
@[simp] theorem State.answer_answers (ans : Answer) : (s.answer ans).answers = ans :: s.answers := rfl
@[simp] theorem State.answer_program (ans : Answer) : (s.answer ans).program = s.program := rfl
@[simp] theorem State.answer_turns (ans : Answer) : (s.answer ans).turns = s.turns := rfl
@[simp] theorem State.answer_rng (ans : Answer) : (s.answer ans).rng = s.rng := rfl
@[simp] theorem State.answer_freeReads (ans : Answer) : (s.answer ans).freeReads = s.freeReads := rfl

@[simp] theorem State.busError_cfg : (s.busError).cfg = s.cfg := rfl
@[simp] theorem State.busError_a : (s.busError).a = s.a := rfl
@[simp] theorem State.busError_b : (s.busError).b = s.b := rfl
@[simp] theorem State.busError_m : (s.busError).m = s.m := rfl
@[simp] theorem State.busError_r : (s.busError).r = s.r := rfl
@[simp] theorem State.busError_x : (s.busError).x = s.x := rfl
@[simp] theorem State.busError_y : (s.busError).y = s.y := rfl
@[simp] theorem State.busError_irqEn : (s.busError).irqEn = s.irqEn := rfl
@[simp] theorem State.busError_status : (s.busError).status = s.status := rfl
@[simp] theorem State.busError_cmd : (s.busError).cmd = s.cmd := rfl
@[simp] theorem State.busError_rounds : (s.busError).rounds = s.rounds := rfl
@[simp] theorem State.busError_numbits : (s.busError).numbits = s.numbits := rfl
@[simp] theorem State.busError_limit : (s.busError).limit = s.limit := rfl
@[simp] theorem State.busError_attempts : (s.busError).attempts = s.attempts := rfl
@[simp] theorem State.busError_phase : (s.busError).phase = s.phase := rfl
@[simp] theorem State.busError_engine : (s.busError).engine = s.engine := rfl
@[simp] theorem State.busError_faults : (s.busError).faults = { s.faults with busFault := true } := rfl
@[simp] theorem State.busError_answers : (s.busError).answers = .busError :: s.answers := rfl
@[simp] theorem State.busError_program : (s.busError).program = s.program := rfl
@[simp] theorem State.busError_turns : (s.busError).turns = s.turns := rfl
@[simp] theorem State.busError_rng : (s.busError).rng = s.rng := rfl
@[simp] theorem State.busError_freeReads : (s.busError).freeReads = s.freeReads := rfl

@[simp] theorem State.setBig_cfg (z : BigName) (v : BigReg) : (s.setBig z v).cfg = s.cfg := by cases z <;> rfl
@[simp] theorem State.setBig_irqEn (z : BigName) (v : BigReg) : (s.setBig z v).irqEn = s.irqEn := by cases z <;> rfl
@[simp] theorem State.setBig_status (z : BigName) (v : BigReg) : (s.setBig z v).status = s.status := by cases z <;> rfl
@[simp] theorem State.setBig_cmd (z : BigName) (v : BigReg) : (s.setBig z v).cmd = s.cmd := by cases z <;> rfl
@[simp] theorem State.setBig_rounds (z : BigName) (v : BigReg) : (s.setBig z v).rounds = s.rounds := by cases z <;> rfl
@[simp] theorem State.setBig_numbits (z : BigName) (v : BigReg) : (s.setBig z v).numbits = s.numbits := by cases z <;> rfl
@[simp] theorem State.setBig_limit (z : BigName) (v : BigReg) : (s.setBig z v).limit = s.limit := by cases z <;> rfl
@[simp] theorem State.setBig_attempts (z : BigName) (v : BigReg) : (s.setBig z v).attempts = s.attempts := by cases z <;> rfl
@[simp] theorem State.setBig_phase (z : BigName) (v : BigReg) : (s.setBig z v).phase = s.phase := by cases z <;> rfl
@[simp] theorem State.setBig_engine (z : BigName) (v : BigReg) : (s.setBig z v).engine = s.engine := by cases z <;> rfl
@[simp] theorem State.setBig_faults (z : BigName) (v : BigReg) : (s.setBig z v).faults = s.faults := by cases z <;> rfl
@[simp] theorem State.setBig_answers (z : BigName) (v : BigReg) : (s.setBig z v).answers = s.answers := by cases z <;> rfl
@[simp] theorem State.setBig_program (z : BigName) (v : BigReg) : (s.setBig z v).program = s.program := by cases z <;> rfl
@[simp] theorem State.setBig_turns (z : BigName) (v : BigReg) : (s.setBig z v).turns = s.turns := by cases z <;> rfl
@[simp] theorem State.setBig_rng (z : BigName) (v : BigReg) : (s.setBig z v).rng = s.rng := by cases z <;> rfl
@[simp] theorem State.setBig_freeReads (z : BigName) (v : BigReg) : (s.setBig z v).freeReads = s.freeReads := by cases z <;> rfl

@[simp] theorem State.setBig_big_same (z : BigName) (v : BigReg) : (s.setBig z v).big z = v := by cases z <;> rfl

theorem State.setBig_big_other (z z' : BigName) (v : BigReg) (h : z' ≠ z) : (s.setBig z v).big z' = s.big z' := by
  cases z <;> cases z' <;> first | rfl | exact absurd rfl h

@[simp] theorem State.checkFit_big (fits : Bool) (z : BigName) : (s.checkFit fits).big z = s.big z := by
  cases z <;> rfl

/-- A check that holds changes nothing. -/
@[simp] theorem State.checkFit_true : s.checkFit true = s := by simp [State.checkFit]

end Sys2Proof.Machine
end

