-- ==== Sys2Proof/Laws/Big.lean ====
section
/-! SUPPORT. Big-integer registers as numbers: bounds, the round trip through limbs, and that every operation keeps
the register's number of limbs (the canonical form of this machine's only storage). -/

namespace Sys2Proof.Machine

open Sys2Proof

@[simp] theorem BigReg.uninit_length (n : Nat) : (BigReg.uninit n).length = n := List.length_replicate

@[simp] theorem BigReg.ofNat_length (n v : Nat) : (BigReg.ofNat n v).length = n := by
  induction n generalizing v with
  | zero => rfl
  | succ n ih => simp [BigReg.ofNat, ih]

@[simp] theorem setLimb_length (z : BigReg) (i : Nat) (v : Word) : (setLimb z i v).length = z.length :=
  List.length_set

theorem commitBig_length (n : Nat) (new : Option Nat) (old : BigReg) (h : old.length = n) :
    (commitBig n new old).length = n := by
  cases new <;> simp [commitBig, h]

theorem BigReg.val_lt (z : BigReg) : z.val < 2 ^ (32 * z.length) := by
  induction z with
  | nil => simp [BigReg.val]
  | cons l rest ih =>
    have hl := l.val.isLt
    rw [BigReg.val, List.length_cons, Nat.mul_succ, Nat.pow_add, Nat.mul_comm (2 ^ (32 * rest.length))]
    have : 2 ^ 32 * (BigReg.val rest + 1) ≤ 2 ^ 32 * 2 ^ (32 * rest.length) := Nat.mul_le_mul_left _ ih
    omega

theorem BigReg.val_ofNat (n v : Nat) : (BigReg.ofNat n v).val = v % 2 ^ (32 * n) := by
  induction n generalizing v with
  | zero => simp [BigReg.ofNat, BigReg.val, Nat.mod_one]
  | succ n ih =>
    rw [BigReg.ofNat, BigReg.val, ih, BitVec.toNat_ofNat, Nat.mul_succ, Nat.add_comm (32 * n), Nat.pow_add,
      Nat.mod_mul]

theorem BigReg.val_ofNat_of_lt {n v : Nat} (h : v < 2 ^ (32 * n)) : (BigReg.ofNat n v).val = v := by
  rw [BigReg.val_ofNat, Nat.mod_eq_of_lt h]

@[simp] theorem BigReg.ofNat_ready (n v : Nat) : (BigReg.ofNat n v).ready = true := by
  induction n generalizing v with
  | zero => rfl
  | succ n ih =>
    rw [BigReg.ofNat, BigReg.ready, List.all_cons, Bool.true_and]
    exact ih _

@[simp] theorem BigReg.val_uninit (n : Nat) : (BigReg.uninit n).val = 0 := by
  induction n with
  | zero => rfl
  | succ n ih =>
    rw [BigReg.uninit, List.replicate_succ, BigReg.val, ← BigReg.uninit, ih]; rfl

/-- `OPW = 32 * L` in an allowed configuration (00_scope.md R5, R6). -/
theorem Config.opw_eq {c : Config} (h : c.wellFormed = true) : c.opw = 32 * c.limbs := by
  simp only [Config.wellFormed, Bool.and_eq_true, beq_iff_eq] at h
  unfold Config.limbs; omega

theorem Config.limbs_bounds {c : Config} (h : c.wellFormed = true) : 2 ≤ c.limbs ∧ c.limbs ≤ 64 := by
  simp only [Config.wellFormed, Bool.and_eq_true, beq_iff_eq, decide_eq_true_eq] at h
  unfold Config.limbs; omega

/-- Every big-integer value lies in `[0, 2^OPW)` (00_scope.md R5). -/
theorem State.Shaped.value_lt {s : State} (h : s.Shaped) (z : BigName) : s.value z < 2 ^ s.cfg.opw := by
  have := (s.big z).val_lt
  rwa [h.limbs z, ← Config.opw_eq h.cfg_ok] at this

/-- A result below `2^OPW` is stored exactly (30_encoding.md R95). -/
theorem State.Shaped.val_ofNat {s : State} (h : s.Shaped) {v : Nat} (hv : v < 2 ^ s.cfg.opw) :
    (BigReg.ofNat s.cfg.limbs v).val = v :=
  BigReg.val_ofNat_of_lt (by rwa [← Config.opw_eq h.cfg_ok])

end Sys2Proof.Machine
end

