-- ==== Sys2Proof/Laws/Ops.lean ====
section
/-! SUPPORT. One lemma for each shared operation, saying once everything it can do: a draw, an attempt, a command's
step, a host access, a host move and a machine step. -/

namespace Sys2Proof.Machine

open Sys2Proof

/-! ## Draws -/

theorem intoRange_mem {lo hi : Nat} (h : lo ≤ hi) (v : Nat) : lo ≤ intoRange lo hi v ∧ intoRange lo hi v ≤ hi := by
  unfold intoRange
  split
  · assumption
  · have := Nat.mod_lt v (show 0 < hi - lo + 1 by omega)
    omega

theorem intoRange_of_mem {lo hi v : Nat} (h₁ : lo ≤ v) (h₂ : v ≤ hi) : intoRange lo hi v = v := if_pos ⟨h₁, h₂⟩

/-- A draw that answers `ok` answers inside the range (00_scope.md R15). -/
theorem Rng.draw_mem {g g' : Rng} {lo hi v : Nat} (h : lo ≤ hi) (hd : g.draw lo hi = (.ok v, g')) :
    lo ≤ v ∧ v ≤ hi := by
  unfold Rng.draw at hd
  split at hd
  · next u _ _ => cases hd; exact intoRange_mem h u
  · cases hd

theorem Rng.draw_ok_script {g : Rng} {v : Nat} {rest : List RngAnswer} (lo hi : Nat)
    (h : g.script = .ok v :: rest) : g.draw lo hi = (.ok (intoRange lo hi v), { g with script := rest }) := by
  simp [Rng.draw, Rng.next, h]

theorem Rng.draw_fail_script {g : Rng} {rest : List RngAnswer} (lo hi : Nat) (h : g.script = .fail :: rest) :
    g.draw lo hi = (.fail, { g with script := rest }) := by
  simp [Rng.draw, Rng.next, h]

/-- One request more answers `ok` exactly when it does and the rest do. -/
theorem Rng.answersOk_of_ok {g g' : Rng} {lo hi v : Nat} (k : Nat) (h : g.draw lo hi = (.ok v, g')) :
    g.answersOk lo hi (k + 1) = g'.answersOk lo hi k := by
  simp [Rng.answersOk, h]

theorem Rng.answersOk_of_fail {g g' : Rng} {lo hi : Nat} (k : Nat) (h : g.draw lo hi = (.fail, g')) :
    g.answersOk lo hi (k + 1) = false := by
  simp [Rng.answersOk, h]

/-! ## Attempts and command steps -/

/-- Everything an attempt can do (44_random_search.md R183). -/
theorem State.attempt_cases (s : State) (lo hi : Nat) (accept : Nat → Rng → Verdict × Rng) :
    (s.atCeiling = true ∧ s.attempt lo hi accept = s.completeErr .attemptsExhausted) ∨
    (s.atCeiling = false ∧ ∃ g, s.rng.draw lo hi = (.fail, g) ∧ s.attempt lo hi accept =
      { s with attempts := satInc s.attempts, rng := g }.completeErr .randomnessFailure) ∨
    (s.atCeiling = false ∧ ∃ c g, s.rng.draw lo hi = (.ok c, g) ∧ s.attempt lo hi accept =
      { s with attempts := satInc s.attempts, rng := (accept c g).2 }.endAttempt c (accept c g).1) := by
  unfold State.attempt
  cases hc : s.atCeiling with
  | true => exact .inl ⟨rfl, if_pos rfl⟩
  | false =>
    rw [if_neg Bool.false_ne_true]
    rcases s.rng.draw lo hi with ⟨ans, g⟩
    cases ans with
    | fail => exact .inr (.inl ⟨rfl, g, rfl, rfl⟩)
    | ok c => exact .inr (.inr ⟨rfl, c, g, rfl, rfl⟩)

/-- The outputs a commit of command `i` may carry: the third column of 30_encoding.md R97. -/
structure OutputsListed (i : Instr) (o : Outputs) : Prop where
  mrtest : i = .mrtest → o.r = none
  others : i ≠ .mrtest → o.prime = none ∧ ∃ v, o.r = some v
  signs  : i ≠ .extgcd → o.x = none ∧ o.y = none ∧ o.xneg = none ∧ o.yneg = none

/-- Everything one step of a command can do when it answers a next state: complete with an error, commit its listed
outputs, pass validation, or stay `BUSY` after a rejected attempt. -/
inductive ExecEnds (i : Instr) (s t : State) : Prop where
  | error (code : ErrCode) (n : Word) (g : Rng)
      (ht : t = { s with attempts := n, rng := g }.completeErr code) (hcode : code ≠ .none)
      (hn : n = s.attempts ∨ (isSearch i = true ∧ n = satInc s.attempts))
      (hg : i = .modexp ∨ i = .extgcd ∨ i = .modinv → g = s.rng)
  | commit (o : Outputs) (n : Word) (g : Rng) (fits : Bool)
      (ht : t = ({ s with attempts := n, rng := g }.checkFit fits).completeOk o) (ho : OutputsListed i o)
      (hf : i = .extgcd ∨ i = .modinv ∨ fits = true)
      (hn : n = s.attempts ∨ (isSearch i = true ∧ n = satInc s.attempts))
      (hg : i = .modexp ∨ i = .extgcd ∨ i = .modinv → g = s.rng)
      (hx : i = .extgcd → o = extgcdOutputs (extgcd (s.value .a) (s.value .b)) ∧
        fits = coeffsFit s.cfg.opw (extgcd (s.value .a) (s.value .b)))
  | begun (ht : t = s.beginSearch) (hs : s.engine ≠ .searching) (hv : s.validated i)
  | rejected (g : Rng) (ht : t = { s with attempts := satInc s.attempts, rng := g })
      (hi : isSearch i = true) (hs : s.engine = .searching) (hc : s.atCeiling = false)

theorem attempt_ends {i : Instr} {s : State} (lo hi : Nat) (accept : Nat → Rng → Verdict × Rng)
    (hsr : isSearch i = true) (hs : s.engine = .searching) : ExecEnds i s (s.attempt lo hi accept) := by
  have hne : ¬ (i = .modexp ∨ i = .extgcd ∨ i = .modinv) := by cases i <;> simp_all [isSearch]
  have hmr : i ≠ .mrtest := by rintro rfl; cases hsr
  have hxg : i ≠ .extgcd := by rintro rfl; cases hsr
  obtain ⟨-, h⟩ | ⟨-, g, -, h⟩ | ⟨hc, c, g, -, h⟩ := s.attempt_cases lo hi accept
  · exact .error .attemptsExhausted s.attempts s.rng h (by decide) (.inl rfl) fun _ => rfl
  · exact .error .randomnessFailure _ g h (by decide) (.inr ⟨hsr, rfl⟩) fun h' => absurd h' hne
  · cases hv : (accept c g).1 with
    | accept =>
      exact .commit { r := some c } _ _ true (by rw [h, hv, State.checkFit_true]; rfl)
        ⟨fun h' => absurd h' hmr, fun _ => ⟨rfl, c, rfl⟩, fun _ => ⟨rfl, rfl, rfl, rfl⟩⟩ (.inr (.inr rfl))
        (.inr ⟨hsr, rfl⟩) (fun h' => absurd h' hne) fun h' => absurd h' hxg
    | reject => exact .rejected _ (by rw [h, hv]; rfl) hsr hs hc
    | drawFailed =>
      exact .error .randomnessFailure _ _ (by rw [h, hv]; rfl) (by decide) (.inr ⟨hsr, rfl⟩) fun h' => absurd h' hne

theorem exec_ends {i : Instr} {s t : State} (h : exec i s = .next t) : ExecEnds i s t := by
  cases i with
  | modexp =>
    simp only [exec, execModexp] at h
    split at h
    · cases h; exact .error .invalidModulus s.attempts s.rng rfl (by decide) (.inl rfl) fun _ => rfl
    · cases h
      exact .commit _ s.attempts s.rng true (by rw [State.checkFit_true])
        ⟨by simp, fun _ => ⟨rfl, _, rfl⟩, by simp⟩ (.inr (.inr rfl)) (.inl rfl) (fun _ => rfl) (by simp)
  | extgcd =>
    simp only [exec, execExtgcd] at h
    cases h
    exact .commit _ s.attempts s.rng _ rfl ⟨by simp, fun _ => ⟨rfl, _, rfl⟩, by simp⟩ (.inl rfl) (.inl rfl)
      (fun _ => rfl) fun _ => ⟨rfl, rfl⟩
  | modinv =>
    simp only [exec, execModinv] at h
    split at h
    · cases h; exact .error .invalidModulus s.attempts s.rng rfl (by decide) (.inl rfl) fun _ => rfl
    · split at h
      · cases h; exact .error .noModularInverse s.attempts s.rng rfl (by decide) (.inl rfl) fun _ => rfl
      · cases h
        exact .commit _ s.attempts s.rng _ rfl ⟨by simp, fun _ => ⟨rfl, _, rfl⟩, by simp⟩ (.inr (.inl rfl)) (.inl rfl)
          (fun _ => rfl) (by simp)
  | mrtest =>
    simp only [exec, execMrtest] at h
    split at h <;> cases h
    · exact .commit { prime := some true } s.attempts _ true (by rw [State.checkFit_true])
        ⟨fun _ => rfl, by simp, by simp⟩ (.inr (.inr rfl)) (.inl rfl) (by simp) (by simp)
    · exact .commit { prime := some false } s.attempts _ true (by rw [State.checkFit_true])
        ⟨fun _ => rfl, by simp, by simp⟩ (.inr (.inr rfl)) (.inl rfl) (by simp) (by simp)
    · exact .error .randomnessFailure s.attempts _ rfl (by decide) (.inl rfl) (by simp)
  | randprime =>
    simp only [exec, execRandprime] at h
    split at h
    · next hs => cases h; exact attempt_ends _ _ _ rfl hs
    · next hs =>
      split at h <;> cases h
      · exact .error .invalidBitLength s.attempts s.rng rfl (by decide) (.inl rfl) fun _ => rfl
      · next hv => exact .begun rfl hs (by simp only [State.validated]; omega)
  | randcoprime =>
    simp only [exec, execRandcoprime] at h
    split at h
    · next hs => cases h; exact attempt_ends _ _ _ rfl hs
    · next hs =>
      split at h <;> cases h
      · exact .error .invalidOperand s.attempts s.rng rfl (by decide) (.inl rfl) fun _ => rfl
      · next hv => exact .begun rfl hs (by simp only [State.validated]; omega)

/-- A command always answers a next state: none of its paths stops. -/
theorem exec_next (i : Instr) (s : State) : ∃ t, exec i s = .next t := by
  cases h : exec i s with
  | next t => exact ⟨t, rfl⟩
  | fault f => cases f
  | refused q =>
    cases i
    all_goals
      simp only [exec, execModexp, execExtgcd, execModinv, execMrtest, execRandprime, execRandcoprime] at h
      repeat' split at h
      all_goals cases h

theorem engineReady_iff {s : State} : s.engineReady = true ↔ s.phase.isBusy = true ∧ s.engine ≠ .held := by
  simp [State.engineReady]

/-- Everything one engine step can do when it answers a next state: nothing while `IDLE` or held, else one step of the
command. -/
theorem engineStep_next {s t : State} (h : s.engineStep = .next t) :
    ((s.phase = .idle ∨ s.engine = .held) ∧ t = s) ∨
    ∃ w, s.phase = .busy w ∧ s.engine ≠ .held ∧
      ((∃ e, decodeWord w = .error e ∧ t = s.completeErr .illegalCommand) ∨
        ∃ i, decodeWord w = .ok i ∧ exec i s = .next t) := by
  unfold State.engineStep at h
  cases hp : s.phase with
  | idle => rw [hp] at h; cases h; exact .inl ⟨.inl rfl, rfl⟩
  | busy w =>
    simp only [hp] at h
    split at h
    · next hh => cases h; exact .inl ⟨.inr hh, rfl⟩
    · next hh =>
      refine .inr ⟨w, rfl, hh, ?_⟩
      cases hd : decodeWord w with
      | error e => rw [hd] at h; cases h; exact .inl ⟨e, rfl, rfl⟩
      | ok i => rw [hd] at h; exact .inr ⟨i, rfl, h⟩

/-! ## Host accesses -/

theorem State.writeCtrl_cases (s : State) (v : Word) :
    s.writeCtrl v = s.softReset ∨ s.writeCtrl v = { s with irqEn := bitOf v 0 } := by
  unfold State.writeCtrl; split <;> simp

/-- Everything a host access can do: a refusal, a read of the window, a read of an UNINIT limb, or one accepted
write. -/
inductive AccessEnds (s t : State) : Prop where
  | refused (ht : t = s.busError)
  | read (w : Word) (ht : t = s.answer (.data w))
  | uninit (z : BigName) (i : Nat) (hu : (limbAt (s.big z) i).init = false)
      (ht : t = { s with
        faults := { s.faults with uninitRead := true }
        answers := .data (Config.freeUninit s.freeReads) :: s.answers
        freeReads := s.freeReads + 1 })
  | ctrl (v : Word) (ht : t = (s.writeCtrl v).answer .written)
  | status (v : Word) (ht : t = (s.writeStatus v).answer .written)
  | issue (v : Word) (hp : s.phase = .idle) (ht : t = (s.issue v).answer .written)
  | rounds (v : Half) (hp : s.phase = .idle) (ht : t = { s with rounds := v }.answer .written)
  | numbits (v : Half) (hp : s.phase = .idle) (ht : t = { s with numbits := v }.answer .written)
  | limit (v : Word) (hp : s.phase = .idle) (ht : t = { s with limit := v }.answer .written)
  | limb (z : BigName) (i : Nat) (v : Word) (hp : s.phase = .idle) (hw : hostWritable z = true)
      (ht : t = (s.setBig z (setLimb (s.big z) i v)).answer .written)

theorem State.writeIfIdle_cases (s t : State) :
    s.writeIfIdle t = s.busError ∨ (s.phase = .idle ∧ s.writeIfIdle t = t.answer .written) := by
  unfold State.writeIfIdle
  cases hp : s.phase <;> simp [Phase.isBusy]

theorem hostRead_ends (s : State) (off : Offset) (size : Nat) : AccessEnds s (s.hostRead off size) := by
  unfold State.hostRead
  split
  · exact .refused rfl
  · split
    · exact .refused rfl
    · exact .read _ rfl
    · next z i _ =>
      unfold State.readLimb
      split
      · exact .read _ rfl
      · next hu => exact .uninit z i (by simpa using hu) rfl

theorem writeCtl_ends (s : State) (v : Word) (c : CtlReg) : AccessEnds s (s.writeCtl v c) := by
  cases c <;> unfold State.writeCtl
  case id => exact .refused rfl
  case hwcfg => exact .refused rfl
  case attempts => exact .refused rfl
  case ctrl => exact .ctrl v rfl
  case status => exact .status v rfl
  case cmd => exact (s.writeIfIdle_cases _).elim .refused fun h => .issue v h.1 h.2
  case rounds => exact (s.writeIfIdle_cases _).elim .refused fun h => .rounds _ h.1 h.2
  case numbits => exact (s.writeIfIdle_cases _).elim .refused fun h => .numbits _ h.1 h.2
  case limit => exact (s.writeIfIdle_cases _).elim .refused fun h => .limit _ h.1 h.2

theorem hostWrite_ends (s : State) (off : Offset) (size : Nat) (strobes : BitVec 4) (v : Word) :
    AccessEnds s (s.hostWrite off size strobes v) := by
  unfold State.hostWrite
  split
  · exact .refused rfl
  · split
    · exact .refused rfl
    · exact writeCtl_ends s v _
    · next z i _ =>
      unfold State.writeLimb
      split
      · next hw => exact (s.writeIfIdle_cases _).elim .refused fun h => .limb z i v h.1 hw h.2
      · exact .refused rfl

theorem access_ends (s : State) (acc : Access) : AccessEnds s (s.access acc) := by
  cases acc with
  | read off size => exact hostRead_ends s off size
  | write off size strobes v => exact hostWrite_ends s off size strobes v

/-- No host access changes how many limbs a register holds: the storage keeps its form. -/
theorem access_limbs (s : State) (acc : Access) (z : BigName) :
    ((s.access acc).big z).length = (s.big z).length := by
  obtain h | ⟨w, h⟩ | ⟨-, -, -, h⟩ | ⟨v, h⟩ | ⟨v, h⟩ | ⟨v, -, h⟩ | ⟨v, -, h⟩ | ⟨v, -, h⟩ | ⟨v, -, h⟩ |
    ⟨z', i, v, -, -, h⟩ := access_ends s acc <;> rw [h]
  case ctrl => obtain h' | h' := s.writeCtrl_cases v <;> rw [h'] <;> cases z <;> rfl
  case issue => unfold State.issue; split <;> cases z <;> rfl
  case limb => cases z' <;> cases z <;> first | rfl | exact setLimb_length _ _ _
  all_goals cases z <;> rfl

/-- A host move changes nothing, or is one access after its program has advanced. -/
theorem hostStep_cases (s : State) :
    s.hostStep = s ∨ ∃ prog acc, s.hostStep = ({ s with program := prog }).access acc := by
  unfold State.hostStep
  split
  · exact .inl rfl
  · exact .inr ⟨_, _, rfl⟩
  · exact .inr ⟨_, _, rfl⟩

/-! ## Steps -/

/-- Everything a step can do when it answers a next state: the host, the engine or the reset input moves, with `turns`
advanced. -/
theorem step_next {s t : State} (h : step s = .next t) :
    ∃ rest, (s.turns = [] ∧ rest = [] ∨ ∃ a, s.turns = a :: rest) ∧
      (t = ({ s with turns := rest }).hostStep ∨
        ({ s with turns := rest } : State).engineStep = .next t ∨
        (s.turns.head? = some .reset ∧ t = ({ s with turns := rest }).hardReset)) := by
  unfold step at h
  split at h
  · next rest hr => cases h; exact ⟨rest, .inr ⟨_, hr⟩, .inl rfl⟩
  · next rest hr => exact ⟨rest, .inr ⟨_, hr⟩, .inr (.inl h)⟩
  · next rest hr => cases h; exact ⟨rest, .inr ⟨_, hr⟩, .inr (.inr ⟨by rw [hr]; rfl, rfl⟩)⟩
  · next hr =>
    have hs : { s with turns := [] } = s := by rw [← hr]
    refine ⟨[], .inl ⟨hr, rfl⟩, ?_⟩
    rw [hs]
    split at h
    · exact .inr (.inl h)
    · cases h; exact .inl rfl

end Sys2Proof.Machine
end

