-- ==== Sys2Proof/Laws/PerInstr.lean ====
section
/-! SUPPORT. The per-instruction family `ReservedZero`: what 30_encoding.md R90, R92 and R93 say of each command's
word. -/

namespace Sys2Proof.Laws.ReservedZero

open Sys2Proof

/-- The word of a command has its reserved field 0, an assigned opcode, and is legal (30_encoding.md R90, R93, R94). -/
def Statement (i : Instr) : Prop :=
  i.wellFormed = true ∧ rsvField (encode i) = 0#24 ∧ 1 ≤ (opField (encode i)).toNat ∧
    (opField (encode i)).toNat ≤ 6 ∧ legalWord (encode i) = true

theorem modexp : Statement .modexp := by unfold Statement; decide
theorem extgcd : Statement .extgcd := by unfold Statement; decide
theorem modinv : Statement .modinv := by unfold Statement; decide
theorem mrtest : Statement .mrtest := by unfold Statement; decide
theorem randprime : Statement .randprime := by unfold Statement; decide
theorem randcoprime : Statement .randcoprime := by unfold Statement; decide

end Sys2Proof.Laws.ReservedZero
end

