-- ==== Sys2Proof/Tests/Slice0.lean ====
section
/-! SUPPORT. Tests of the model: ill-formed terms the checks refuse, words written out from the encodings of the spec,
its test vectors (95_test_vectors.md, whose expected values come from the spec), and a witness for the hypotheses of
every obligation. -/

namespace Sys2Proof.Tests

open Sys2Proof Sys2Proof.Machine

/-! ## Small states -/

/-- The reset state with A, B and M loaded. -/
def loaded (a b m : Nat) : State :=
  { State.reset with a := BigReg.ofNat 4 a, b := BigReg.ofNat 4 b, m := BigReg.ofNat 4 m }

/-- A state whose RNG will give these answers. -/
def withDraws (s : State) (l : List RngAnswer) : State := { s with rng := { script := l, taken := 0 } }

/-- A state with ROUNDS and NUMBITS set. -/
def withParams (s : State) (rounds numbits : Half) : State := { s with rounds := rounds, numbits := numbits }

/-- A command issued, and not yet validated. -/
def started (i : Instr) (s : State) : State := s.startCommand (encode i)

/-- A search command past its validation step. -/
def inSearch (i : Instr) (s : State) : State := { started i s with engine := .searching }

theorem exists_next {o : Host.Outcome State Fault Refusal} {p : State → Bool} (h : nextSatisfies o p = true) :
    ∃ t, o = .next t ∧ p t = true := by
  cases o with
  | next t => exact ⟨t, rfl, h⟩
  | fault f => cases h
  | refused q => cases h

theorem reference_wellFormed : Config.reference.wellFormed = true := by decide

theorem reference_limbs : Config.reference.limbs = 4 := by decide

theorem loaded_shaped (a b m : Nat) : (loaded a b m).Shaped := by
  refine ⟨reference_wellFormed, fun z => ?_⟩
  show _ = Config.reference.limbs
  cases z
  · exact BigReg.ofNat_length 4 a
  · exact BigReg.ofNat_length 4 b
  · exact BigReg.ofNat_length 4 m
  all_goals exact BigReg.uninit_length _

theorem started_inv (i : Instr) (a b m : Nat) (l : Word) (g : List RngAnswer) :
    (started i (withDraws { loaded a b m with limit := l } g)).Inv := by
  refine ⟨⟨reference_wellFormed, fun z => (loaded_shaped a b m).limbs z⟩, fun z hz => .inr ?_, by simp [started], ?_, ?_,
    ⟨fun h => (by cases h), fun h => (by cases h)⟩, fun h => (by cases h), rfl, ?_, fun h => (by cases h), ?_⟩
  · cases z <;> first | (cases hz; done) | (intro x hx; rw [List.mem_replicate.1 hx |>.2]; rfl)
  · intro w hw; cases hw; exact ⟨rfl, rfl, rfl, rfl⟩
  · exact ⟨fun h => (by cases h), fun h => absurd rfl h⟩
  · intro w j _ _ _
    have e : ∀ v, (BigReg.ofNat 4 v).ready = true := BigReg.ofNat_ready 4
    cases j <;> simp [State.uninitOperand, readsOf, started, withDraws, loaded, State.startCommand, State.big, e]
  · intro w j hw hd hs _
    cases hw
    have : (started i (withDraws { loaded a b m with limit := l } g)).attempts = 0#32 := by
      simp [started, State.startCommand, hd, hs]
    rw [this]; exact Nat.zero_le _

theorem inSearch_inv (i : Instr) (a b m : Nat) (l : Word) (g : List RngAnswer)
    (hd : decodeWord (encode i) = .ok i)
    (hv : (started i (withDraws { loaded a b m with limit := l } g)).validated i) :
    (inSearch i (withDraws { loaded a b m with limit := l } g)).Inv := by
  obtain ⟨h1, h2, -, h4, h5, h6, -, h7, h8, -, h10⟩ := started_inv i a b m l g
  refine ⟨⟨h1.cfg_ok, fun z => h1.limbs z⟩, h2, ⟨fun h => (by cases h), fun h => (by cases h)⟩, h4, h5, h6,
    fun h => (by cases h), h7, ?_, ?_, h10⟩
  · intro w j hw _ hj
    exact h8 w j hw (by simp [started]) hj
  · intro _
    refine ⟨encode i, i, rfl, hd, ?_⟩
    cases i <;> exact hv

/-! ## The checks refuse ill-formed terms (00_scope.md R5, R8; 30_encoding.md R93, R94, R100) -/

theorem test_wellFormed_width_not_a_multiple : Config.wellFormed { opw := 100, base := 0 } = false := by decide
theorem test_wellFormed_width_too_small : Config.wellFormed { opw := 32, base := 0 } = false := by decide
theorem test_wellFormed_width_too_large : Config.wellFormed { opw := 2080, base := 0 } = false := by decide
theorem test_wellFormed_base_unaligned : Config.wellFormed { opw := 128, base := 0x800 } = false := by decide
theorem test_wellFormed_widths :
    Config.wellFormed { opw := 64, base := 0 } = true ∧ Config.wellFormed { opw := 2048, base := 0x3000 } = true := by
  decide
theorem test_legalWord_refuses :
    legalWord 0x00000000#32 = false ∧ legalWord 0x00000007#32 = false ∧ legalWord 0x000000FF#32 = false ∧
      legalWord 0x00000101#32 = false ∧ legalWord 0x80000004#32 = false := by decide
theorem test_line_refuses :
    lineWellFormed Config.reference (.ldbig .r 0) = false ∧
      lineWellFormed Config.reference (.ldbig .a (2 ^ 128)) = false ∧
      lineWellFormed Config.reference (.w (.limb .a 4) 0#32) = false ∧
      lineWellFormed Config.reference (.r (.limb .y 64) "t") = false := by decide
theorem test_window_offsets :
    Config.offsetOf { opw := 128, base := 0x4000 } 0x400C = some 0x00C#12 ∧
      Config.offsetOf { opw := 128, base := 0x4000 } 0x5000 = none := by decide

/-! ## Decoding: words written out from 30_encoding.md R90 and R92 (OP in bits 7:0, RSV in bits 31:8) -/

theorem test_decode_modexp : decodeWord 0b00000000000000000000000000000001#32 = .ok .modexp := by decide
theorem test_decode_extgcd : decodeWord 0b00000000000000000000000000000010#32 = .ok .extgcd := by decide
theorem test_decode_modinv : decodeWord 0b00000000000000000000000000000011#32 = .ok .modinv := by decide
theorem test_decode_mrtest : decodeWord 0b00000000000000000000000000000100#32 = .ok .mrtest := by decide
theorem test_decode_randprime : decodeWord 0b00000000000000000000000000000101#32 = .ok .randprime := by decide
theorem test_decode_randcoprime : decodeWord 0b00000000000000000000000000000110#32 = .ok .randcoprime := by decide

/-- TV-EN-1 to TV-EN-5. -/
theorem test_decode_illegal :
    decodeWord 0x00000000#32 = .error .unassignedOpcode ∧ decodeWord 0x00000007#32 = .error .unassignedOpcode ∧
      decodeWord 0x000000FF#32 = .error .unassignedOpcode ∧ decodeWord 0x00000101#32 = .error .reservedBits ∧
      decodeWord 0x80000004#32 = .error .reservedBits := by decide

theorem test_decode_bytes :
    decode [0x05#8, 0#8, 0#8, 0#8, 0xAB#8] = .ok (.randprime, [0xAB#8]) ∧
      decode [0x01#8, 0x01#8, 0#8, 0#8] = .error .reservedBits ∧ decode [0x05#8, 0#8, 0#8] = .error .truncated := by
  decide

theorem test_decode_table_words :
    decodeTableWord 32 0x00000002 = some .extgcd ∧ decodeTableWord 8 0x06 = some .randcoprime ∧
      decodeTableWord 32 0x00000102 = none := by decide

/-! ## Commands -/

/-- TV-ME-5: `0^0 mod 13` takes the short-circuit. -/
theorem test_modexp_short_circuit :
    nextSatisfies (exec .modexp (started .modexp (loaded 0 0 13)))
      (fun t => t.value .r == 0 && t.ctlWord .status == 0x00000002#32) = true := by decide

/-- TV-ME-12: `3^(2^128 - 1) mod (2^127 - 1)`. -/
theorem test_modexp_full_width :
    nextSatisfies (exec .modexp (started .modexp (loaded 3 (2 ^ 128 - 1) (2 ^ 127 - 1))))
      (fun t => t.value .r == 27) = true := by decide +kernel

/-- TV-EG-8. -/
theorem test_extgcd_negative_x :
    nextSatisfies (exec .extgcd (started .extgcd (loaded 240 46 0)))
      (fun t => t.value .r == 2 && t.value .x == 9 && t.value .y == 47 && t.ctlWord .status == 0x00000012#32) =
        true := by decide

/-- TV-EG-13: the largest operands, with YNEG. -/
theorem test_extgcd_negative_y :
    nextSatisfies (exec .extgcd (started .extgcd (loaded (2 ^ 128 - 1) (2 ^ 128 - 2) 0)))
      (fun t => t.value .r == 1 && t.value .x == 1 && t.value .y == 1 && t.ctlWord .status == 0x00000022#32) =
        true := by decide +kernel

/-- TV-MI-3: A above M. -/
theorem test_modinv_large_operand :
    nextSatisfies (exec .modinv (started .modinv (loaded 10 0 7)))
      (fun t => t.value .r == 5 && t.ctlWord .status == 0x00000002#32) = true := by decide

/-- TV-MI-12: 3 divides `2^128 - 1`. -/
theorem test_modinv_no_inverse :
    nextSatisfies (exec .modinv (started .modinv (loaded 3 0 (2 ^ 128 - 1))))
      (fun t => t.ctlWord .status == 0x00000306#32 && t.r == State.reset.r) = true := by decide +kernel

/-- TV-MR-11: the second of two rounds rejects 561. -/
theorem test_mrtest_second_round_rejects :
    nextSatisfies (exec .mrtest (started .mrtest (withParams (withDraws (loaded 561 0 0) [.ok 50, .ok 2, .ok 9]) 2 64)))
      (fun t => t.ctlWord .status == 0x00000002#32 && t.rng.script == [.ok 9]) = true := by decide

/-- TV-MR-21: the second witness draw fails. -/
theorem test_mrtest_failed_draw :
    nextSatisfies (exec .mrtest (started .mrtest (withParams (withDraws (loaded 97 0 0) [.ok 5, .fail]) 3 64)))
      (fun t => t.ctlWord .status == 0x00000506#32) = true := by decide

/-- TV-RP-4, its second attempt: witness 2 rejects 221. -/
theorem test_randprime_rejects :
    nextSatisfies (exec .randprime (inSearch .randprime
        { withParams (withDraws State.reset [.ok 221, .ok 2, .ok 7]) 20 8 with attempts := 1#32 }))
      (fun t => t.ctlWord .status == 0x00000001#32 && t.attempts == 1#32 && t.rng.script == [.ok 7]) = true := by
  decide

/-- TV-RP-6: with ROUNDS = 0 the composite 255 is accepted. -/
theorem test_randprime_accepts :
    nextSatisfies (exec .randprime (inSearch .randprime (withParams (withDraws State.reset [.ok 255]) 0 8)))
      (fun t => t.value .r == 255 && t.ctlWord .status == 0x00000002#32 && t.attempts == 1#32) = true := by decide

/-- TV-RC-3 (and TV-EN-6): M = 0. -/
theorem test_randcoprime_invalid_operand :
    nextSatisfies (exec .randcoprime (started .randcoprime (loaded 0 0 0)))
      (fun t => t.ctlWord .status == 0x00000706#32 && t.attempts == 0#32) = true := by decide

/-- TV-RC-4, its second attempt: 2 is coprime to 3. -/
theorem test_randcoprime_accepts :
    nextSatisfies (exec .randcoprime { inSearch .randcoprime (withDraws (loaded 0 0 3) [.ok 2]) with attempts := 1#32 })
      (fun t => t.value .r == 2 && t.attempts == 2#32) = true := by decide

/-! ## The host port -/

/-- TV-BUS-1 and TV-BUS-2. -/
theorem test_read_id :
    (State.reset.access (.read 0x000#12 4)).answers = [.data 0x4D455850#32] ∧
      (State.reset.access (.read 0x004#12 4)).answers = [.data 0x00010004#32] := by decide

/-- TV-BUS-3, TV-BUS-5 and TV-BUS-9. -/
theorem test_refused_reads :
    (State.reset.access (.read 0x002#12 4)).answers = [.busError] ∧
      (State.reset.access (.read 0x110#12 4)).answers = [.busError] ∧
      (State.reset.access (.read 0x00C#12 2)).answers = [.busError] := by decide

/-- TV-BUS-8: NUMBITS keeps its low half only. -/
theorem test_numbits_reserved_half :
    ((State.reset.access (.write 0x018#12 4 0xF#4 0xFFFF0008#32)).access (.read 0x018#12 4)).answers =
      [.data 0x00000008#32, .written] := by decide

/-- TV-BUS-10: an operand write while `BUSY`. -/
theorem test_busy_write_refused :
    ((started .modexp (loaded 1 2 3)).access (.write 0x100#12 4 0xF#4 7#32)).answers = [.busError] ∧
      ((started .modexp (loaded 1 2 3)).access (.write 0x100#12 4 0xF#4 7#32)).value .a = 1 := by decide

/-- TV-BUS-14, and the held command of 10_state.md R29. -/
theorem test_uninit :
    (State.reset.access (.read 0x400#12 4)).faults.uninitRead = true ∧
      (State.reset.access (.write 0x010#12 4 0xF#4 1#32)).faults.uninitRead = true ∧
      nextSatisfies (State.reset.access (.write 0x010#12 4 0xF#4 1#32)).engineStep
        (fun t => decide (t.phase = .busy 1#32 ∧ t.engine = .held)) = true := by decide

/-- Program P1, lines 9 to 12: LDBIG's bus triples. -/
theorem test_ldbig_triples :
    (expandLine Config.reference (.ldbig .m 3233)).map tripleOf =
      [some (true, 0x300#12, some 0x00000CA1#32), some (true, 0x304#12, some 0#32), some (true, 0x308#12, some 0#32),
        some (true, 0x30C#12, some 0#32)] := by decide

/-- TV-CY-2: `irq` after a completion with IRQ_EN = 1, and after W STATUS 0x2. -/
theorem test_irq :
    nextSatisfies (started .modexp ((loaded 65 17 3233).access (.write 0x008#12 4 0xF#4 1#32))).engineStep
      (fun t => t.irq && !(t.access (.write 0x00C#12 4 0xF#4 2#32)).irq) = true := by decide

/-! ## Witnesses: states and operands that meet the hypotheses of each obligation -/

theorem witness_DecodeEncodeAgree :
    Instr.wellFormed .randcoprime = true ∧ decodeWord 0x00000006#32 = .ok .randcoprime := by decide

/-- Each cause at a boundary: the lowest and the top RSV bit, OP = 0x00, 0x07, 0xFF. -/
theorem witness_IllegalWordCompletesWithIllegalCommand :
    ∀ w ∈ [0x00000101#32, 0x80000004#32, 0x00000000#32, 0x00000007#32, 0x000000FF#32],
      (w.extractLsb' 8 24 ≠ 0#24 ∨ w.extractLsb' 0 8 = 0x00#8 ∨ 0x07 ≤ (w.extractLsb' 0 8).toNat) ∧
        (State.reset.startCommand w).phase = .busy w ∧ (State.reset.startCommand w).engine ≠ .held := by
  simp

theorem witness_AddressMapIsExact :
    regAt 64 0x6FC#12 = some (.limb .y 63) ∧ regAt 2 0x104#12 = some (.limb .a 1) ∧ regAt 2 0x108#12 = none ∧
      regAt 64 0x020#12 = some (.ctl .attempts) ∧ regAt 64 0x700#12 = none := by decide

theorem witness_ResetLeavesTheResetTable :
    ∀ w ∈ [64, 128, 2048], Config.wellFormed { opw := w, base := 0x1000 } = true := by decide

theorem witness_HardwareResetGivesResetState :
    ∃ (s : State) (rest : List Turn), s.turns = .reset :: rest ∧ s.phase.isBusy = true :=
  ⟨{ started .modexp (loaded 1 2 3) with turns := [.reset, .host] }, [.host], rfl, rfl⟩

theorem witness_CtrlWriteSoftResetsOrSetsIrqEnable :
    (0x00000003#32).getLsbD 1 = true ∧ (0x00000001#32).getLsbD 1 = false := by decide

theorem witness_StatusWriteClearsOnlyDone :
    ∃ s : State, s.Inv ∧ s.phase ≠ .idle :=
  ⟨started .mrtest (withDraws { loaded 7 0 0 with limit := 0#32 } []), started_inv .mrtest 7 0 0 0#32 [], by decide⟩

theorem witness_CompletionRaisesTheInterrupt :
    (∃ (s t : State) (w : Word), s.phase = .busy w ∧ s.engineStep = .next t ∧ t.phase = .idle) ∧
      (0x00000002#32).getLsbD 1 = true ∧ State.reset.phase = .idle := by
  obtain ⟨t, ht, hp⟩ := exists_next (o := (started .modexp (loaded 65 17 3233)).engineStep)
    (p := fun t => decide (t.phase = .idle)) (by decide)
  exact ⟨⟨_, t, encode .modexp, rfl, ht, of_decide_eq_true hp⟩, by decide, rfl⟩

/-- Each clause at a boundary, `L = 4`: size, strobes, alignment, the two unmapped ranges, the limbs `i >= L`. -/
theorem witness_BadWidthAlignmentOrOffsetIsRefused :
    (2 : Nat) ≠ 4 ∧ 0b0111#4 ≠ 0b1111#4 ∧ (0x003#12).extractLsb' 0 2 ≠ 0#2 ∧
      (∀ off ∈ [0x024#12, 0x0FC#12], 0x024 ≤ off.toNat ∧ off.toNat ≤ 0x0FF) ∧
      (∀ off ∈ [0x700#12, 0xFFC#12], 0x700 ≤ off.toNat) ∧
      (∀ off ∈ [0x110#12, 0x1FC#12, 0x610#12],
        0x100 ≤ off.toNat ∧ State.reset.cfg.limbs ≤ off.toNat % 0x100 / 4) := by
  simp [State.reset, State.resetWith, Config.reference, Config.limbs]

theorem witness_ReadOnlyAndBusyWritesAreRefused :
    (∀ off ∈ [0x400#12, 0x6FC#12], 0x400 ≤ off.toNat ∧ off.toNat ≤ 0x6FF) ∧
      (started .modexp (loaded 1 2 3)).phase ≠ .idle ∧
      (∀ off ∈ [0x100#12, 0x3FC#12], 0x100 ≤ off.toNat ∧ off.toNat ≤ 0x3FF) := by
  simp [started]

theorem witness_IdentificationRegistersAreConstant :
    State.reset.cfg.wellFormed = true ∧ State.reset.cfg.opw = 128 := by decide

theorem witness_ParameterRegistersReadBack : State.reset.phase = .idle := rfl

/-- The last limb of M. -/
theorem witness_LimbWriteStoresOneLimb :
    (loaded 1 2 3).Shaped ∧ (loaded 1 2 3).phase = .idle ∧ hostWritable .m = true ∧ 3 < (loaded 1 2 3).cfg.limbs :=
  ⟨loaded_shaped 1 2 3, rfl, rfl, by decide⟩

/-- Both values of the mark check. -/
theorem witness_IssueStartsTheCommand :
    State.reset.phase = .idle ∧ State.reset.uninitIssue (encode .modexp) = true ∧ (loaded 1 2 3).phase = .idle ∧
      (loaded 1 2 3).uninitIssue (encode .modexp) = false := by decide

theorem witness_InitialisationMarksAndUninitRead :
    (extgcdOutputs (2, -9, 47)).r = some 2 ∧ (extgcdOutputs (2, -9, 47)).x = some 9 ∧
      (extgcdOutputs (2, -9, 47)).y = some 47 ∧
      (loaded 1 2 3).Shaped ∧ ((loaded 1 2 3).big .y)[3]? = some Limb.uninit ∧ Limb.uninit.init = false ∧
      State.reset.phase = .idle ∧ decodeWord 0x00000003#32 = .ok .modinv ∧ BigName.m ∈ readsOf .modinv ∧
      Limb.uninit ∈ State.reset.big .m :=
  ⟨rfl, rfl, rfl, loaded_shaped 1 2 3, by decide, rfl, rfl, by decide, by decide, by decide⟩

theorem witness_EngineTurnRunsTheDecodedCommand :
    (started .mrtest (loaded 7 0 0)).phase = .busy 0x00000004#32 ∧ (started .mrtest (loaded 7 0 0)).engine ≠ .held ∧
      decodeWord 0x00000004#32 = .ok .mrtest ∧ (started .mrtest (loaded 7 0 0)).turns = [] ∧
      ({ started .mrtest (loaded 7 0 0) with turns := [.engine, .host] } : State).turns = .engine :: [.host] := by
  decide

theorem witness_WaitPollsUntilNotBusy :
    ({ started .modexp (loaded 1 2 3) with program := [.wait] } : State).program = .wait :: [] := rfl

/-- The largest number. -/
theorem witness_LoadBigStoresTheNumber :
    ∃ (s : State) (rest : List HostOp), s.Shaped ∧ s.phase = .idle ∧
      lineWellFormed s.cfg (.ldbig .m (2 ^ 128 - 1)) = true ∧
      s.program = expandLine s.cfg (.ldbig .m (2 ^ 128 - 1)) ++ rest ∧ s.turns = List.replicate s.cfg.limbs .host :=
  ⟨{ loaded 1 2 3 with
      program := expandLine Config.reference (.ldbig .m (2 ^ 128 - 1)) ++ [.wait], turns := List.replicate 4 .host },
    [.wait], ⟨reference_wellFormed, (loaded_shaped 1 2 3).limbs⟩, rfl, by decide, rfl, rfl⟩

theorem witness_ReadBigReturnsTheNumber :
    ∃ (s : State) (rest : List HostOp), s.Shaped ∧ (s.big .a).ready = true ∧
      s.program = expandLine s.cfg (.rdbig .a "t") ++ rest ∧ s.turns = List.replicate s.cfg.limbs .host :=
  ⟨{ loaded 1 2 3 with
      program := expandLine Config.reference (.rdbig .a "t") ++ [.wait], turns := List.replicate 4 .host },
    [.wait], ⟨reference_wellFormed, (loaded_shaped 1 2 3).limbs⟩, by decide, rfl, rfl⟩

theorem witness_ZeroModulusIsInvalid : (loaded 123 456 0).value .m = 0 := by decide

/-- An ordinary modulus, and M = 1. -/
theorem witness_ModexpComputesThePower :
    (loaded 65 17 3233).Shaped ∧ (loaded 65 17 3233).value .m ≠ 0 ∧ (loaded 65 17 3233).value .a % 3233 ≠ 0 ∧
      (loaded 5 0 1).Shaped ∧ (loaded 5 0 1).value .m ≠ 0 ∧ (loaded 5 0 1).value .a % 1 = 0 :=
  ⟨loaded_shaped _ _ _, by decide, by decide, loaded_shaped _ _ _, by decide, by decide⟩

theorem witness_ExtgcdFollowsItsRecursion : (46 : Nat) ≠ 0 ∧ extgcd 46 (240 % 46) = (2, 2, -9) := by decide

theorem witness_ExtgcdCommitsBezout : (loaded 240 46 0).Shaped := loaded_shaped _ _ _

theorem witness_CoefficientsAlwaysFit :
    ∃ s t : State, s.Shaped ∧ exec .extgcd s = .next t :=
  ⟨loaded (2 ^ 128 - 1) (2 ^ 127) 0, _, loaded_shaped _ _ _, rfl⟩

/-- An ordinary modulus, and M = 1. -/
theorem witness_ModinvCommitsTheInverse :
    (loaded 17 0 3120).Shaped ∧ (loaded 17 0 3120).value .m ≠ 0 ∧
      Nat.gcd ((loaded 17 0 3120).value .a) ((loaded 17 0 3120).value .m) = 1 ∧
      (loaded 0 0 1).Shaped ∧ (loaded 0 0 1).value .m ≠ 0 ∧
      Nat.gcd ((loaded 0 0 1).value .a) ((loaded 0 0 1).value .m) = 1 :=
  ⟨loaded_shaped _ _ _, by decide, by decide, loaded_shaped _ _ _, by decide, by decide⟩

theorem witness_MissingInverseIsReported :
    (loaded 0 0 7).value .m ≠ 0 ∧ Nat.gcd ((loaded 0 0 7).value .a) ((loaded 0 0 7).value .m) ≠ 1 := by decide

theorem witness_DecomposeSplitsOffPowersOfTwo : 5 ≤ 5 ∧ 5 % 2 = 1 ∧ decompose 561 = (4, 35) := by decide

/-- A value for each clause. -/
theorem witness_MrtestDrawsNothingInItsEdgeCases :
    (loaded 1 0 0).value .a ≤ 1 ∧ (loaded 2 0 0).value .a = 2 ∧ (loaded 3 0 0).value .a = 3 ∧
      4 ≤ (loaded 4 0 0).value .a ∧ (loaded 4 0 0).value .a % 2 = 0 ∧ 5 ≤ (loaded 5 0 0).value .a ∧
      (loaded 5 0 0).value .a % 2 = 1 ∧ (withParams (loaded 5 0 0) 0 64).rounds = 0#16 := by decide

/-- One sequence that passes (TV-MR-10), one that does not (TV-MR-11). -/
theorem witness_MrtestVerdictFollowsItsWitnesses :
    ∀ ws ∈ [[50], [50, 2]],
      let s := withParams (withDraws (loaded 561 0 0) (ws.map .ok ++ [.fail])) (BitVec.ofNat 16 ws.length) 64;
      5 ≤ s.value .a ∧ s.value .a % 2 = 1 ∧ ws.length = s.rounds.toNat ∧
        (∀ a ∈ ws, 2 ≤ a ∧ a ≤ s.value .a - 2) ∧ s.rng.script = ws.map .ok ++ [.fail] := by decide

/-- A prime for each clause: 3 needs no draw; 5 with a draw that answers, and with one that fails. -/
theorem witness_PrimesAlwaysPassMrtest :
    ((loaded 3 0 0).value .a).Prime ∧ (loaded 3 0 0).value .a < 5 ∧ ((loaded 5 0 0).value .a).Prime ∧
      5 ≤ (loaded 5 0 0).value .a ∧ Rng.answersOk 2 (5 - 2) 1 { script := [.ok 3], taken := 0 } = true ∧
      Rng.answersOk 2 (5 - 2) 1 { script := [.fail], taken := 0 } = false := by
  have h3 : (loaded 3 0 0).value .a = 3 := by decide
  have h5 : (loaded 5 0 0).value .a = 5 := by decide
  rw [h3, h5]; exact ⟨Nat.prime_three, by decide, Nat.prime_five, by decide, by decide, by decide⟩

/-- TV-MR-10 and TV-MR-9: 50 passes on 561 and 2 does not. -/
theorem witness_WitnessRoundFollowsItsRule :
    561 % 2 = 1 ∧ 50 ≤ 561 - 2 ∧ witnessPasses 561 50 (decompose 561).1 (decompose 561).2 = true ∧
      witnessPasses 561 2 (decompose 561).1 (decompose 561).2 = false := by decide

/-- NUMBITS at both ends of each clause, `OPW = 128`. -/
theorem witness_RandprimeChecksItsBitLength :
    (started .randprime State.reset).engine = .issued ∧ State.reset.cfg.opw = 128 ∧ (0#16).toNat = 0 ∧
      128 < (129#16).toNat ∧ 1 ≤ (1#16).toNat ∧ (128#16).toNat ≤ 128 := by decide

theorem witness_RandcoprimeChecksItsTotient :
    (started .randcoprime (loaded 0 0 2)).engine = .issued ∧ (started .randcoprime (loaded 0 0 2)).value .m ≤ 2 ∧
      (started .randcoprime (loaded 0 0 3)).engine = .issued ∧
      3 ≤ (started .randcoprime (loaded 0 0 3)).value .m := by decide

/-- TV-RP-6, and an attempt with a witness draw. -/
theorem witness_RandprimeCommitsItsCandidate :
    ∃ (s s' : State) (g g₁ g₂ : Rng), s.Shaped ∧ s.engine = .searching ∧ s.validated .randprime ∧
      s.atCeiling = false ∧ s.rng.draw (2 ^ (s.numbits.toNat - 1)) (2 ^ s.numbits.toNat - 1) = (.ok 255, g) ∧
      isProbablePrime 255 s.rounds.toNat g = (.accept, g) ∧
      s'.Shaped ∧ s'.engine = .searching ∧ s'.validated .randprime ∧ s'.atCeiling = false ∧
      s'.rng.draw (2 ^ (s'.numbits.toNat - 1)) (2 ^ s'.numbits.toNat - 1) = (.ok 7, g₁) ∧
      isProbablePrime 7 s'.rounds.toNat g₁ = (.accept, g₂) :=
  ⟨inSearch .randprime (withParams (withDraws (loaded 0 0 0) [.ok 255]) 0 8),
    inSearch .randprime (withParams (withDraws (loaded 0 0 0) [.ok 7, .ok 2]) 1 3),
    { script := [], taken := 0 }, { script := [.ok 2], taken := 0 }, { script := [], taken := 0 },
    ⟨reference_wellFormed, (loaded_shaped 0 0 0).limbs⟩, rfl, by unfold State.validated; decide, by decide, by decide, by decide,
    ⟨reference_wellFormed, (loaded_shaped 0 0 0).limbs⟩, rfl, by unfold State.validated; decide, by decide, by decide, by decide⟩

/-- M = 3, the smallest totient; its one acceptable candidate. -/
theorem witness_RandcoprimeCommitsItsCandidate :
    ∃ (s : State) (g : Rng), s.Shaped ∧ s.engine = .searching ∧ s.validated .randcoprime ∧ s.atCeiling = false ∧
      s.rng.draw 0 (s.value .m - 1) = (.ok 2, g) ∧ Nat.gcd 2 (s.value .m) = 1 :=
  ⟨inSearch .randcoprime (withDraws (loaded 0 0 3) [.ok 2]), { script := [], taken := 0 },
    ⟨reference_wellFormed, (loaded_shaped 0 0 3).limbs⟩, rfl, by unfold State.validated; decide, by decide, by decide, by decide⟩

theorem witness_CeilingEndsTheSearch :
    ∀ i ∈ [Instr.randprime, Instr.randcoprime], isSearch i = true ∧
      ∃ s : State, s.engine = .searching ∧ s.limit ≠ 0#32 ∧ s.attempts = s.limit := by
  intro i hi
  exact ⟨by fin_cases hi <;> rfl, { inSearch i (loaded 0 0 3) with limit := 1#32, attempts := 1#32 }, rfl,
    by simp, rfl⟩

/-- One for each of its clauses (TV-MR-21, TV-RP-8, TV-RP-7). -/
theorem witness_FailedDrawAbortsTheCommand :
    (let s := withParams (withDraws (loaded 97 0 0) [.ok 5, .fail]) 3 64;
      5 ≤ s.value .a ∧ s.value .a % 2 = 1 ∧ [5].length < s.rounds.toNat ∧
        (∀ a ∈ [5], 2 ≤ a ∧ a ≤ s.value .a - 2 ∧
          witnessPasses (s.value .a) a (decompose (s.value .a)).1 (decompose (s.value .a)).2 = true) ∧
        s.rng.script = [5].map .ok ++ .fail :: []) ∧
    (let s := inSearch .randprime (withDraws (loaded 0 0 3) [.fail]);
      isSearch .randprime = true ∧ s.engine = .searching ∧ s.atCeiling = false ∧ s.rng.script = .fail :: []) ∧
    (let s := inSearch .randprime (withParams (withDraws (loaded 0 0 0) [.ok 131, .ok 5, .fail]) 20 8);
      s.engine = .searching ∧ s.atCeiling = false ∧
        s.rng.draw (2 ^ (s.numbits.toNat - 1)) (2 ^ s.numbits.toNat - 1) =
          (.ok 131, { script := [.ok 5, .fail], taken := 0 }) ∧
        (isProbablePrime 131 s.rounds.toNat { script := [.ok 5, .fail], taken := 0 }).1 = .drawFailed) := by decide

/-- An even candidate of RANDPRIME; RANDCOPRIME's two causes (TV-RC-1). -/
theorem witness_RejectedCandidateStaysBusy :
    (let s := inSearch .randprime (withParams (withDraws (loaded 0 0 0) [.ok 200]) 20 8);
      s.engine = .searching ∧ s.atCeiling = false ∧
        s.rng.draw (2 ^ (s.numbits.toNat - 1)) (2 ^ s.numbits.toNat - 1) = (.ok 200, { script := [], taken := 0 }) ∧
        (isProbablePrime 200 s.rounds.toNat { script := [], taken := 0 }).1 = .reject) ∧
    (∀ c ∈ [1, 1560],
      let s := inSearch .randcoprime (withDraws (loaded 0 0 3120) [.ok c]);
      s.engine = .searching ∧ s.atCeiling = false ∧
        s.rng.draw 0 (s.value .m - 1) = (.ok c, { script := [], taken := 0 }) ∧
        (c < 2 ∨ Nat.gcd c (s.value .m) ≠ 1)) := by decide

theorem witness_DrawsStayInRange :
    (1 : Nat) ≤ 1 ∧ Rng.draw { script := [.ok 1], taken := 0 } 1 1 = (.ok 1, { script := [], taken := 0 }) := by
  decide

/-- Every command answers a next state on some operands. -/
theorem witness_CommandsChangeOnlyTheirOutputs (i : Instr) :
    (started i (withParams (withDraws (loaded 7 2 3) [.ok 2]) 1 8)).Shaped ∧
      ∃ t, exec i (started i (withParams (withDraws (loaded 7 2 3) [.ok 2]) 1 8)) = .next t := by
  obtain ⟨t, ht, -⟩ := exists_next (o := exec i (started i (withParams (withDraws (loaded 7 2 3) [.ok 2]) 1 8)))
    (p := fun _ => true) (by cases i <;> decide)
  exact ⟨⟨reference_wellFormed, (loaded_shaped 7 2 3).limbs⟩, t, ht⟩

/-- The offsets that bound each excluded region. -/
theorem witness_CommandsLeaveTheRestOfTheWindow :
    (∃ t, exec .modexp (started .modexp (loaded 7 2 3)) = .next t) ∧
      ∀ off ∈ [0x008#12, 0x010#12, 0x01C#12, 0x100#12, 0x3FC#12, 0x500#12, 0x6FC#12],
        off ≠ 0x00C#12 ∧ off ≠ 0x020#12 ∧ ¬ (0x400 ≤ off.toNat ∧ off.toNat ≤ 0x4FF) := by
  obtain ⟨t, ht, -⟩ := exists_next (o := exec .modexp (started .modexp (loaded 7 2 3))) (p := fun _ => true) (by decide)
  exact ⟨⟨t, ht⟩, by simp⟩

/-- A completion with an error, and one without. -/
theorem witness_ErrorCompletionWritesNoOutput :
    ∀ e : Bool, ∃ (i : Instr) (s t : State) (w : Word), s.phase = .busy w ∧ exec i s = .next t ∧ t.phase = .idle ∧
      t.status.err = e := by
  intro e
  obtain ⟨t, ht, hp⟩ := exists_next (o := exec .modexp (started .modexp (loaded 7 2 (if e then 0 else 3))))
    (p := fun t => decide (t.phase = .idle) && decide (t.status.err = e)) (by cases e <;> decide)
  simp only [Bool.and_eq_true, decide_eq_true_eq] at hp
  exact ⟨_, _, t, encode .modexp, rfl, ht, hp⟩

/-- A verdict, a failed draw, and a step that does not complete. -/
theorem witness_StatusFlagsDoNotSteerCommands :
    nextSatisfies (exec .mrtest (started .mrtest (loaded 4 0 0)))
        (fun t => decide (t.engine = .empty ∧ t.status.err = false)) = true ∧
      nextSatisfies (exec .mrtest (started .mrtest (withDraws (loaded 5 0 0) [.fail])))
        (fun t => decide (t.engine = .empty ∧ t.status.err = true)) = true ∧
      nextSatisfies (exec .randprime (started .randprime State.reset)) (fun t => decide (t.engine ≠ .empty)) = true := by
  decide

/-- M, which EXTGCD does not read. -/
theorem witness_UnlistedOperandsDoNotSteerCommands : hostWritable .m = true ∧ BigName.m ∉ readsOf .extgcd := by decide

theorem witness_InvariantHoldsAtReset : Config.wellFormed { opw := 2048, base := 0x1000 } = true := by decide

/-- A search at work, under a ceiling. -/
theorem witness_EveryStepKeepsTheInvariant :
    ∃ s t : State, s.Inv ∧ step s = .next t := by
  obtain ⟨t, ht, -⟩ := exists_next
    (o := step (inSearch .randcoprime (withDraws { loaded 0 0 3120 with limit := 10#32 } [.ok 17])))
    (p := fun _ => true) (by decide)
  exact ⟨_, t, inSearch_inv .randcoprime 0 0 3120 10#32 [.ok 17] (by decide) (by unfold State.validated; decide), ht⟩

/-- A rejected attempt. -/
theorem witness_BusyKeepsOldOutputs :
    ∃ (s t : State) (w w' : Word), s.phase = .busy w ∧ step s = .next t ∧ t.phase = .busy w' := by
  obtain ⟨t, ht, hp⟩ := exists_next (o := step (inSearch .randcoprime (withDraws (loaded 0 0 3120) [.ok 0])))
    (p := fun t => decide (t.phase = .busy 0x00000006#32)) (by decide)
  exact ⟨_, t, 0x00000006#32, 0x00000006#32, rfl, ht, of_decide_eq_true hp⟩

/-- A commit that changes R. -/
theorem witness_OnlyCommitsWriteOutputs :
    ∃ s t : State, step s = .next t ∧ t.r ≠ s.r := by
  obtain ⟨t, ht, hp⟩ := exists_next (o := step (started .modexp (loaded 65 17 3233)))
    (p := fun t => decide (t.r ≠ (started .modexp (loaded 65 17 3233)).r)) (by decide)
  exact ⟨_, t, ht, of_decide_eq_true hp⟩

/-- A host access that records `BusFault`. -/
theorem witness_RecordedFaultsStay :
    ∃ s t : State, step s = .next t ∧ s.faults.busFault = false ∧ t.faults.busFault = true := by
  obtain ⟨t, ht, hp⟩ := exists_next (o := step { State.reset with program := [.access (.read 0x024#12 4)] })
    (p := fun t => t.faults.busFault) (by decide)
  exact ⟨_, t, ht, rfl, hp⟩

/-- A legal command, and an illegal word. -/
theorem witness_OneStepCommandsComplete :
    ∃ (s : State) (w : Word), s.Inv ∧ s.phase = .busy w ∧ s.engine ≠ .held ∧ decodeWord w ≠ .ok .randprime ∧
      decodeWord w ≠ .ok .randcoprime :=
  ⟨started .extgcd (withDraws { loaded 240 46 0 with limit := 0#32 } []), encode .extgcd,
    started_inv .extgcd 240 46 0 0#32 [], rfl, by decide, by decide, by decide⟩

/-- A search past validation, and one before it. -/
theorem witness_BoundedSearchCompletes :
    ∃ s s' : State, s.Inv ∧ s.phase = .busy (encode .randcoprime) ∧
      decodeWord (encode .randcoprime) = .ok .randcoprime ∧ isSearch .randcoprime = true ∧ s.engine ≠ .held ∧
      s.limit ≠ 0#32 ∧ s'.Inv ∧ s'.phase = .busy (encode .randcoprime) ∧ s'.engine ≠ .held ∧ s'.limit ≠ 0#32 :=
  ⟨inSearch .randcoprime (withDraws { loaded 0 0 3120 with limit := 1#32 } []),
    started .randcoprime (withDraws { loaded 0 0 3120 with limit := 1#32 } []),
    inSearch_inv .randcoprime 0 0 3120 1#32 [] (by decide) (by unfold State.validated; decide), rfl, by decide, rfl,
    by decide, by decide, started_inv .randcoprime 0 0 3120 1#32 [], rfl, by decide, by decide⟩

theorem witness_OneBitSearchNeverCompletes :
    ∃ s : State, s.phase = .busy (encode .randprime) ∧ s.engine = .searching ∧ s.numbits = 1#16 ∧ s.limit = 0#32 ∧
      s.rng.script = [1, 1].map .ok ∧ [1, 1].length = 2 ∧ s.turns = List.replicate 2 .engine :=
  ⟨{ inSearch .randprime (withParams (withDraws (loaded 0 0 0) [.ok 1, .ok 1]) 20 1) with
      turns := [.engine, .engine] }, rfl, rfl, rfl, rfl, rfl, rfl, rfl⟩

/-- The spec's `e = 17` for `phi = 3120` (program P4). -/
theorem witness_SelectedExponentHasAnInverse :
    ∃ s t u : State, s.Shaped ∧ s.engine = .searching ∧ s.validated .randcoprime ∧ exec .randcoprime s = .next t ∧
      t.succeeded ∧ u.Shaped ∧ u.value .a = t.value .r ∧ u.value .m = s.value .m := by
  obtain ⟨t, ht, hp⟩ := exists_next
    (o := exec .randcoprime (inSearch .randcoprime (withDraws (loaded 0 0 3120) [.ok 17])))
    (p := fun t => decide ((t.phase = .idle ∧ t.engine = .empty ∧ t.status.done = true ∧ t.status.err = false ∧
      t.status.errcode = .none) ∧ t.value .r = 17)) (by decide)
  obtain ⟨hs, hr⟩ := of_decide_eq_true hp
  refine ⟨inSearch .randcoprime (withDraws (loaded 0 0 3120) [.ok 17]), t, loaded 17 0 3120, ⟨reference_wellFormed, (loaded_shaped 0 0 3120).limbs⟩, rfl,
    by unfold State.validated; decide, ht, hs, loaded_shaped _ _ _, ?_, by decide⟩
  rw [hr]; decide

/-- The textbook keys (TV-L1-1 to TV-L1-4). -/
theorem witness_RsaRoundTrip :
    ∃ s t u : State, Nat.Prime 61 ∧ Nat.Prime 53 ∧ 61 ≠ 53 ∧ 17 * 2753 % ((61 - 1) * (53 - 1)) = 1 ∧
      s.Shaped ∧ s.value .m = 61 * 53 ∧ s.value .a < 61 * 53 ∧ s.value .b = 17 ∧ exec .modexp s = .next t ∧
      u.Shaped ∧ u.value .m = 61 * 53 ∧ u.value .a = t.value .r ∧ u.value .b = 2753 := by
  obtain ⟨t, ht, hp⟩ := exists_next (o := exec .modexp (loaded 65 17 3233))
    (p := fun t => decide (t.value .r = 2790)) (by decide)
  refine ⟨_, t, loaded 2790 2753 3233, by norm_num, by norm_num, by decide, by decide, loaded_shaped _ _ _, by decide,
    by decide, by decide, ht, loaded_shaped _ _ _, by decide, ?_, by decide⟩
  rw [of_decide_eq_true hp]; decide

end Sys2Proof.Tests
end

namespace Sys2Proof.Machine

open Sys2Proof

/-! ## Extended Euclid: the recursion without its depth bound, and the size of the coefficients (42_gcd_inverse.md
R140, R142, R144) -/

theorem extgcdRec_succ {b : Nat} (k a : Nat) (hb : b ≠ 0) :
    extgcdRec (k + 1) a b =
      ((extgcdRec k b (a % b)).1, (extgcdRec k b (a % b)).2.2,
        (extgcdRec k b (a % b)).2.1 - ((a / b : Nat) : Int) * (extgcdRec k b (a % b)).2.2) := by
  rw [extgcdRec, if_neg hb]

@[simp] theorem extgcdRec_zero_right (k a : Nat) : extgcdRec k a 0 = (a, 1, 0) := by
  cases k <;> rfl

/-- The depth bound does not matter once it reaches the second argument. -/
theorem extgcdRec_eq_extgcd {k a b : Nat} (h : b ≤ k) : extgcdRec k a b = extgcd a b := by
  induction b using Nat.strong_induction_on generalizing k a with
  | _ b ih =>
    cases b with
    | zero => simp [extgcd]
    | succ n =>
      obtain ⟨k, rfl⟩ : ∃ j, k = j + 1 := ⟨k - 1, by omega⟩
      have hmod : a % (n + 1) < n + 1 := Nat.mod_lt _ n.succ_pos
      rw [extgcd, extgcdRec_succ k a n.succ_ne_zero, extgcdRec_succ n a n.succ_ne_zero, ih _ hmod (by omega),
        ih _ hmod (by omega)]

@[simp] theorem extgcd_zero_right (a : Nat) : extgcd a 0 = (a, 1, 0) := rfl

/-- The recursion of 42_gcd_inverse.md R140. -/
theorem extgcd_of_ne_zero (a : Nat) {b : Nat} (hb : b ≠ 0) :
    extgcd a b =
      ((extgcd b (a % b)).1, (extgcd b (a % b)).2.2,
        (extgcd b (a % b)).2.1 - ((a / b : Nat) : Int) * (extgcd b (a % b)).2.2) := by
  have hmod : a % b < b := Nat.mod_lt _ (Nat.pos_of_ne_zero hb)
  rw [← extgcdRec_eq_extgcd (Nat.le_succ b), extgcdRec_succ b a hb, extgcdRec_eq_extgcd hmod.le]

/-- Sharper than 42_gcd_inverse.md R142, which follows: stated this strictly, the two bounds carry each other through
the recursion. -/
theorem extgcd_natAbs_lt (a b : Nat) :
    (b ≠ 0 → (extgcd a b).2.1.natAbs < b) ∧ ((extgcd a b).2.2.natAbs ≤ 1 ∨ (extgcd a b).2.2.natAbs < a) := by
  induction b using Nat.strong_induction_on generalizing a with
  | _ b ih =>
    by_cases hb : b = 0
    · subst hb; simp
    have hmod : a % b < b := Nat.mod_lt _ (Nat.pos_of_ne_zero hb)
    obtain ⟨hx, hy⟩ := ih _ hmod b
    rw [extgcd_of_ne_zero a hb]
    by_cases h0 : a % b = 0
    · simp [h0, Nat.pos_of_ne_zero hb]
    refine ⟨fun _ => by dsimp only; omega, .inr ?_⟩
    calc ((extgcd b (a % b)).2.1 - ((a / b : Nat) : Int) * (extgcd b (a % b)).2.2).natAbs
      _ ≤ (extgcd b (a % b)).2.1.natAbs + a / b * (extgcd b (a % b)).2.2.natAbs := by
          rw [← Int.natAbs_natCast (a / b), ← Int.natAbs_mul]; exact Int.natAbs_sub_le _ _
      _ < a % b + a / b * b := Nat.add_lt_add_of_lt_of_le (hx h0) (Nat.mul_le_mul_left _ (by omega))
      _ = a := Nat.mod_add_div' a b

/-- The coefficient bounds of 42_gcd_inverse.md R142. -/
theorem extgcd_natAbs_le (a b : Nat) :
    (extgcd a b).2.1.natAbs ≤ max 1 b ∧ (extgcd a b).2.2.natAbs ≤ max 1 a := by
  obtain ⟨hx, hy⟩ := extgcd_natAbs_lt a b
  refine ⟨?_, by omega⟩
  by_cases hb : b = 0
  · subst hb; simp
  · exact (hx hb).le.trans (le_max_right 1 b)

theorem coeffsFit_extgcd {opw a b : Nat} (hw : opw ≠ 0) (ha : a < 2 ^ opw) (hb : b < 2 ^ opw) :
    coeffsFit opw (extgcd a b) = true := by
  obtain ⟨hx, hy⟩ := extgcd_natAbs_le a b
  have h1 : 1 < 2 ^ opw := Nat.one_lt_two_pow hw
  simp only [coeffsFit, Bool.and_eq_true, decide_eq_true_eq]
  exact ⟨hx.trans_lt (max_lt h1 hb), hy.trans_lt (max_lt h1 ha)⟩

/-- The range check of 42_gcd_inverse.md R144 holds: one addition of `m` is enough. -/
theorem modinv_mem_range {a m : Nat} {v : Int} (hm : m ≠ 0) (h : modinv a m = some v) : 0 ≤ v ∧ v < (m : Int) := by
  have hx := (extgcd_natAbs_lt a m).1 hm
  simp only [modinv] at h
  split at h
  · cases h
  · cases h
    split <;> omega

/-! ## No command records `CoeffOverflow` -/

theorem Config.opw_ne_zero {c : Config} (h : c.wellFormed = true) : c.opw ≠ 0 := by
  have := Config.opw_eq h
  have := (Config.limbs_bounds h).1
  omega

theorem State.Shaped.coeffsFit {s : State} (h : s.Shaped) (z z' : BigName) :
    coeffsFit s.cfg.opw (extgcd (s.value z) (s.value z')) = true :=
  coeffsFit_extgcd (Config.opw_ne_zero h.cfg_ok) (h.value_lt z) (h.value_lt z')

theorem execModinv_faults {s t : State} (h : execModinv s = .next t) : t.faults = s.faults := by
  unfold execModinv at h
  split at h
  · cases h; rfl
  · next hm =>
    split at h
    · cases h; rfl
    · next v hv => cases h; simp [modinv_mem_range hm hv]

/-- A command of a well-shaped state records no fault (42_gcd_inverse.md R142, R144). -/
theorem exec_faults {i : Instr} {s t : State} (hs : s.Shaped) (h : exec i s = .next t) : t.faults = s.faults := by
  cases exec_ends h with
  | error code n g ht => rw [ht]; rfl
  | begun ht => rw [ht]; rfl
  | rejected g ht => rw [ht]
  | commit o n g fits ht _ hf _ _ hx =>
    obtain hi | hi | hfits := hf
    · rw [ht, (hx hi).2, hs.coeffsFit, State.checkFit_true]; rfl
    · subst hi; exact execModinv_faults h
    · rw [ht, hfits, State.checkFit_true]; rfl

/-! ## The part of the invariant that speaks of registers and flags alone -/

/-- The clauses of `State.Inv` that hold in either phase and read neither the phase nor the engine; `State.Inv.storage`
and `State.StorageInv.inv_of_idle` tie it to `State.Inv`. -/
structure State.StorageInv (s : State) : Prop where
  shaped  : s.Shaped
  marks   : ∀ z, hostWritable z = false → (∀ l ∈ s.big z, l.init = true) ∨ (∀ l ∈ s.big z, l.init = false)
  errCode : s.status.err = true ↔ s.status.errcode ≠ .none
  signs   : (s.status.xneg = true → s.value .x ≠ 0) ∧ (s.status.yneg = true → s.value .y ≠ 0)
  fits    : s.faults.coeffOverflow = false

theorem State.Inv.storage {s : State} (h : s.Inv) : s.StorageInv :=
  ⟨h.shaped, h.marks, h.errCode, h.signs, h.fits⟩

/-- While `IDLE` the clauses about a running command say nothing. -/
theorem State.StorageInv.inv_of_idle {s : State} (h : s.StorageInv) (hp : s.phase = .idle) (he : s.engine = .empty) :
    s.Inv where
  shaped := h.shaped
  marks := h.marks
  engine := by simp [hp, he]
  busyFlags := by simp [hp]
  errCode := h.errCode
  signs := h.signs
  held := by simp [he]
  fits := h.fits
  ready := by simp [hp]
  searching := by simp [he]
  ceiling := by simp [hp]

theorem State.StorageInv.withDraws {s : State} (h : s.StorageInv) (n : Word) (g : Rng) :
    State.StorageInv { s with attempts := n, rng := g } :=
  ⟨⟨h.shaped.cfg_ok, h.shaped.limbs⟩, h.marks, h.errCode, h.signs, h.fits⟩

/-! ### Completions -/

theorem State.StorageInv.completeErr {s : State} (h : s.StorageInv) {code : ErrCode} (hc : code ≠ .none) :
    (s.completeErr code).StorageInv :=
  ⟨⟨h.shaped.cfg_ok, h.shaped.limbs⟩, h.marks, ⟨fun _ => hc, fun _ => rfl⟩, h.signs, h.fits⟩

theorem commitBig_marks {n : Nat} {old : BigReg} (new : Option Nat)
    (h : (∀ l ∈ old, l.init = true) ∨ (∀ l ∈ old, l.init = false)) :
    (∀ l ∈ commitBig n new old, l.init = true) ∨ (∀ l ∈ commitBig n new old, l.init = false) := by
  cases new with
  | none => exact h
  | some v => exact .inl (List.all_eq_true.1 (BigReg.ofNat_ready n v))

/-- A commit keeps the storage's rules when the sign flags it leaves belong to coefficients that are not 0. -/
theorem State.StorageInv.completeOk {s : State} (h : s.StorageInv) (o : Outputs)
    (hsigns : ((s.completeOk o).status.xneg = true → (s.completeOk o).value .x ≠ 0) ∧
      ((s.completeOk o).status.yneg = true → (s.completeOk o).value .y ≠ 0)) :
    (s.completeOk o).StorageInv where
  shaped := by
    refine ⟨h.shaped.cfg_ok, fun z => ?_⟩
    cases z with
    | a => exact h.shaped.limbs .a
    | b => exact h.shaped.limbs .b
    | m => exact h.shaped.limbs .m
    | r => exact commitBig_length _ _ _ (h.shaped.limbs .r)
    | x => exact commitBig_length _ _ _ (h.shaped.limbs .x)
    | y => exact commitBig_length _ _ _ (h.shaped.limbs .y)
  marks := by
    intro z hz
    cases z with
    | a | b | m => cases hz
    | r => exact commitBig_marks _ (h.marks .r hz)
    | x => exact commitBig_marks _ (h.marks .x hz)
    | y => exact commitBig_marks _ (h.marks .y hz)
  errCode := by simp [Status.atCommit]
  signs := hsigns
  fits := h.fits

/-- A negative coefficient that fits its register is stored as a number other than 0. -/
theorem State.Shaped.val_natAbs_ne_zero {s : State} (h : s.Shaped) {c : Int} (hc : c.natAbs < 2 ^ s.cfg.opw)
    (hneg : decide (c < 0) = true) : (BigReg.ofNat s.cfg.limbs c.natAbs).val ≠ 0 := by
  rw [h.val_ofNat hc]
  have := of_decide_eq_true hneg
  omega

/-- EXTGCD's commit gives no zero coefficient a sign (10_state.md R26). -/
theorem State.StorageInv.completeOk_extgcd {s : State} (h : s.StorageInv) {t : Nat × Int × Int}
    (ht : coeffsFit s.cfg.opw t = true) : (s.completeOk (extgcdOutputs t)).StorageInv := by
  simp only [coeffsFit, Bool.and_eq_true, decide_eq_true_eq] at ht
  exact h.completeOk _ ⟨h.shaped.val_natAbs_ne_zero ht.1, h.shaped.val_natAbs_ne_zero ht.2⟩

/-- A commit that lists neither a coefficient nor a sign keeps both. -/
theorem State.StorageInv.completeOk_unsigned {s : State} (h : s.StorageInv) {o : Outputs}
    (ho : o.x = none ∧ o.y = none ∧ o.xneg = none ∧ o.yneg = none) : (s.completeOk o).StorageInv := by
  obtain ⟨hx, hy, hxn, hyn⟩ := ho
  refine h.completeOk o ?_
  simpa [State.value, State.big, Status.atCommit, commitBig, hx, hy, hxn, hyn] using h.signs

/-! ## Updates that keep the whole invariant -/

/-- Two states with the same block meet the invariant together, as long as no `UninitRead` is forgotten and no
`CoeffOverflow` recorded. -/
theorem State.Inv.of_block_eq {s t : State} (h : s.Inv) (hb : t.block = s.block)
    (hu : s.faults.uninitRead = true → t.faults.uninitRead = true)
    (hc : t.faults.coeffOverflow = s.faults.coeffOverflow) : t.Inv := by
  cases s
  cases t
  simp only [State.block, State.mk.injEq] at hb
  obtain ⟨rfl, rfl, rfl, rfl, rfl, rfl, rfl, rfl, rfl, rfl, rfl, rfl, rfl, rfl, rfl, rfl, -⟩ := hb
  exact ⟨⟨h.shaped.cfg_ok, h.shaped.limbs⟩, h.marks, h.engine, h.busyFlags, h.errCode, h.signs,
    fun he => hu (h.held he), hc.trans h.fits, h.ready, h.searching, h.ceiling⟩

theorem State.Inv.answer {s : State} (h : s.Inv) (ans : Answer) : (s.answer ans).Inv :=
  h.of_block_eq rfl id rfl

theorem State.Inv.completeErr {s : State} (h : s.Inv) {code : ErrCode} (hc : code ≠ .none) : (s.completeErr code).Inv :=
  (h.storage.completeErr hc).inv_of_idle rfl rfl

/-! ### Resets -/

theorem State.Inv.softReset {s : State} (h : s.Inv) : s.softReset.Inv :=
  State.StorageInv.inv_of_idle
    ⟨⟨h.shaped.cfg_ok, h.shaped.limbs⟩, h.marks, by simp [Status.atSoftReset], h.signs, h.fits⟩ rfl rfl

theorem State.hardReset_big (s : State) (z : BigName) : s.hardReset.big z = BigReg.uninit s.cfg.limbs := by
  cases z <;> rfl

theorem State.Inv.hardReset {s : State} (h : s.Inv) : s.hardReset.Inv := by
  refine State.StorageInv.inv_of_idle ⟨⟨h.shaped.cfg_ok, fun z => ?_⟩, fun z _ => .inr fun l hl => ?_, ?_, ?_, h.fits⟩
    rfl rfl
  · rw [s.hardReset_big]; exact BigReg.uninit_length _
  · rw [s.hardReset_big] at hl; rw [List.eq_of_mem_replicate hl]; rfl
  · simp [Status.reset]
  · simp [Status.reset]

/-! ### Host writes -/

theorem State.Inv.writeCtrl {s : State} (h : s.Inv) (v : Word) : (s.writeCtrl v).Inv := by
  obtain hv | hv := s.writeCtrl_cases v <;> rw [hv]
  · exact h.softReset
  · exact ⟨⟨h.shaped.cfg_ok, h.shaped.limbs⟩, h.marks, h.engine, h.busyFlags, h.errCode, h.signs, h.held, h.fits,
      h.ready, h.searching, h.ceiling⟩

/-- A STATUS write changes DONE alone, and leaves a DONE of 0 at 0 (40_command_cycle.md R120). -/
theorem Status.atWrite_eq (st : Status) (v : Word) : ∃ d, st.atWrite v = { st with done := d && st.done } := by
  refine ⟨!bitOf v 1, ?_⟩
  cases hv : bitOf v 1 <;> simp [Status.atWrite, hv]

theorem State.Inv.writeStatus {s : State} (h : s.Inv) (v : Word) : (s.writeStatus v).Inv := by
  obtain ⟨d, hd⟩ := s.status.atWrite_eq v
  have hw : s.writeStatus v = { s with status := { s.status with done := d && s.status.done } } := by
    rw [State.writeStatus, hd]
  rw [hw]
  refine ⟨⟨h.shaped.cfg_ok, h.shaped.limbs⟩, h.marks, h.engine, fun w hp => ?_, h.errCode, h.signs, h.held, h.fits,
      h.ready, h.searching, h.ceiling⟩
  obtain ⟨hcmd, hdone, herr⟩ := h.busyFlags w hp
  exact ⟨hcmd, by simp [hdone], herr⟩

theorem State.startCommand_attempts_of_search {s : State} {w : Word} {i : Instr} (hd : decodeWord w = .ok i)
    (hi : isSearch i = true) : (s.startCommand w).attempts = 0#32 := by
  simp [State.startCommand, hd, hi]

/-- A command started with the hidden state `e` meets the invariant if it waits for validation with all its operands
initialised, or is held with its fault recorded (40_command_cycle.md R111; 10_state.md R29). -/
theorem State.Inv.startCommand {s : State} (h : s.Inv) (w : Word) {e : Engine} {f : FaultRecord}
    (hf : f.coeffOverflow = s.faults.coeffOverflow)
    (he : e = .issued ∧ s.uninitIssue w = false ∨ e = .held ∧ f.uninitRead = true) :
    State.Inv { s.startCommand w with engine := e, faults := f } where
  shaped := ⟨h.shaped.cfg_ok, h.shaped.limbs⟩
  marks := h.marks
  engine := by obtain ⟨rfl, -⟩ | ⟨rfl, -⟩ := he <;> simp
  busyFlags := by
    intro w' hw
    cases hw
    exact ⟨rfl, rfl, rfl, rfl⟩
  errCode := by simp [Status.atIssue]
  signs := h.signs
  held := by
    obtain ⟨rfl, -⟩ | ⟨-, hu⟩ := he
    · simp
    · exact fun _ => hu
  fits := hf.trans h.fits
  ready := by
    intro w' i hw hne hd
    cases hw
    obtain ⟨-, hu⟩ | ⟨rfl, -⟩ := he
    · rwa [State.uninitIssue, hd] at hu
    · exact absurd rfl hne
  searching := by obtain ⟨rfl, -⟩ | ⟨rfl, -⟩ := he <;> simp
  ceiling := by
    intro w' i hw hd hi _
    cases hw
    have ha : (s.startCommand w).attempts = 0#32 := State.startCommand_attempts_of_search hd hi
    simp [ha]

theorem State.Inv.issue {s : State} (h : s.Inv) (w : Word) : (s.issue w).Inv := by
  unfold State.issue
  split
  · exact h.startCommand w rfl (.inr ⟨rfl, rfl⟩)
  · next hu => exact h.startCommand w (e := .issued) (f := s.faults) rfl (.inl ⟨rfl, by simpa using hu⟩)

/-- ROUNDS, NUMBITS and LIMIT are written only while `IDLE`, where no clause reads them (20_memory.md R72). -/
theorem State.Inv.writeParams {s : State} (h : s.Inv) (hp : s.phase = .idle) (rounds numbits : Half) (limit : Word) :
    State.Inv { s with rounds := rounds, numbits := numbits, limit := limit } :=
  State.StorageInv.inv_of_idle ⟨⟨h.shaped.cfg_ok, h.shaped.limbs⟩, h.marks, h.errCode, h.signs, h.fits⟩ hp
    (h.engine.2 hp)

/-- A limb write to an operand register: result registers, whose marks and signs the invariant speaks of, are not the
host's to write (20_memory.md R71, R72). -/
theorem State.Inv.writeOperand {s : State} (h : s.Inv) (hp : s.phase = .idle) {z : BigName} (hw : hostWritable z = true)
    (i : Nat) (v : Word) : (s.setBig z (setLimb (s.big z) i v)).Inv := by
  have hresult : ∀ z', hostWritable z' = false → (s.setBig z (setLimb (s.big z) i v)).big z' = s.big z' := by
    rintro z' hz'
    refine State.setBig_big_other s z z' _ ?_
    rintro rfl
    simp [hw] at hz'
  refine State.StorageInv.inv_of_idle ⟨⟨?_, fun z' => ?_⟩, fun z' hz' => ?_, ?_, ?_, ?_⟩ ?_ ?_
  · simpa using h.shaped.cfg_ok
  · by_cases hz : z' = z
    · subst hz; simpa using h.shaped.limbs z'
    · rw [State.setBig_big_other s z z' _ hz, State.setBig_cfg]; exact h.shaped.limbs z'
  · rw [hresult z' hz']; exact h.marks z' hz'
  · simpa using h.errCode
  · simpa [State.value, hresult .x rfl, hresult .y rfl] using h.signs
  · simpa using h.fits
  · simpa using hp
  · simpa using h.engine.2 hp

/-! ## Each agent keeps the invariant -/

theorem State.Inv.access {s : State} (h : s.Inv) (acc : Access) : (s.access acc).Inv := by
  cases access_ends s acc with
  | refused ht => rw [ht]; exact h.of_block_eq rfl id rfl
  | read w ht => rw [ht]; exact h.answer _
  | uninit z i _ ht => rw [ht]; exact h.of_block_eq rfl (fun _ => rfl) rfl
  | ctrl v ht => rw [ht]; exact (h.writeCtrl v).answer _
  | status v ht => rw [ht]; exact (h.writeStatus v).answer _
  | issue v _ ht => rw [ht]; exact (h.issue v).answer _
  | rounds v hp ht => rw [ht]; exact (h.writeParams hp v s.numbits s.limit).answer _
  | numbits v hp ht => rw [ht]; exact (h.writeParams hp s.rounds v s.limit).answer _
  | limit v hp ht => rw [ht]; exact (h.writeParams hp s.rounds s.numbits v).answer _
  | limb z i v hp hw ht => rw [ht]; exact (h.writeOperand hp hw i v).answer _

theorem State.Inv.hostStep {s : State} (h : s.Inv) : s.hostStep.Inv := by
  obtain hs | ⟨prog, acc, hs⟩ := hostStep_cases s <;> rw [hs]
  · exact h
  · have hprog : State.Inv { s with program := prog } := h.of_block_eq rfl id rfl
    exact hprog.access acc

/-- A count that has not reached its ceiling does not pass it when it goes up by one (44_random_search.md R183). -/
theorem State.satInc_attempts_le_limit {s : State} (hc : s.atCeiling = false) (hl : s.limit ≠ 0#32)
    (h : s.attempts.toNat ≤ s.limit.toNat) : (satInc s.attempts).toNat ≤ s.limit.toNat := by
  have hne : s.attempts ≠ s.limit := by simpa [State.atCeiling, hl] using hc
  have hne' : s.attempts.toNat ≠ s.limit.toNat := fun e => hne (BitVec.eq_of_toNat_eq e)
  unfold satInc
  split
  · next ha => rwa [ha] at h
  · bv_omega

/-- A search command that passes validation (40_command_cycle.md R114). -/
theorem State.Inv.beginSearch {s : State} (h : s.Inv) {w : Word} {i : Instr} (hp : s.phase = .busy w)
    (hh : s.engine ≠ .held) (hd : decodeWord w = .ok i) (hv : s.validated i) : s.beginSearch.Inv where
  shaped := ⟨h.shaped.cfg_ok, h.shaped.limbs⟩
  marks := h.marks
  engine := by simp [hp]
  busyFlags := h.busyFlags
  errCode := h.errCode
  signs := h.signs
  held := by simp
  fits := h.fits
  ready := fun w' j hw _ hj => h.ready w' j hw hh hj
  searching := fun _ => ⟨w, i, hp, hd, by cases i <;> exact hv⟩
  ceiling := h.ceiling

/-- A search that rejects its candidate below its ceiling (40_command_cycle.md R114). -/
theorem State.Inv.rejectCandidate {s : State} (h : s.Inv) (hc : s.atCeiling = false) (g : Rng) :
    State.Inv { s with attempts := satInc s.attempts, rng := g } where
  shaped := ⟨h.shaped.cfg_ok, h.shaped.limbs⟩
  marks := h.marks
  engine := h.engine
  busyFlags := h.busyFlags
  errCode := h.errCode
  signs := h.signs
  held := h.held
  fits := h.fits
  ready := h.ready
  searching := h.searching
  ceiling := fun w i hp hd hi hl => State.satInc_attempts_le_limit hc hl (h.ceiling w i hp hd hi hl)

theorem State.Inv.exec {s t : State} (h : s.Inv) {w : Word} {i : Instr} (hp : s.phase = .busy w)
    (hh : s.engine ≠ .held) (hd : decodeWord w = .ok i) (ht : exec i s = .next t) : t.Inv := by
  cases exec_ends ht with
  | error code n g ht hcode =>
    rw [ht]
    exact ((h.storage.withDraws n g).completeErr hcode).inv_of_idle rfl rfl
  | begun ht _ hv => rw [ht]; exact h.beginSearch hp hh hd hv
  | rejected g ht _ _ hc => rw [ht]; exact h.rejectCandidate hc g
  | commit o n g fits ht' ho _ _ _ hx =>
    have hfits : fits = true := by
      simpa [ht', h.fits] using congrArg FaultRecord.coeffOverflow (exec_faults h.shaped ht)
    rw [ht', hfits, State.checkFit_true]
    have hs := h.storage.withDraws n g
    refine State.StorageInv.inv_of_idle ?_ rfl rfl
    by_cases hi : i = .extgcd
    · obtain ⟨rfl, hcoeffs⟩ := hx hi
      exact hs.completeOk_extgcd (hcoeffs.symm.trans hfits)
    · exact hs.completeOk_unsigned (ho.signs hi)

theorem State.Inv.engineStep {s t : State} (h : s.Inv) (ht : s.engineStep = .next t) : t.Inv := by
  obtain ⟨-, rfl⟩ | ⟨w, hp, hh, ⟨-, -, rfl⟩ | ⟨i, hd, hx⟩⟩ := engineStep_next ht
  · exact h
  · exact h.completeErr (by decide)
  · exact h.exec hp hh hd hx

/-- Settles O50: the turns advance, and each agent's move keeps the invariant. -/
theorem everyStepKeepsTheInvariant : Obligations.EveryStepKeepsTheInvariant := by
  unfold Obligations.EveryStepKeepsTheInvariant
  intro s t h ht
  obtain ⟨rest, -, hstep⟩ := step_next ht
  have hr : State.Inv { s with turns := rest } := h.of_block_eq rfl id rfl
  obtain rfl | he | ⟨-, rfl⟩ := hstep
  · exact hr.hostStep
  · exact hr.engineStep he
  · exact hr.hardReset

/-! ## Draws (00_scope.md R15) -/

/-- Some RNG answers a given value of the range next. -/
theorem Rng.exists_draw_ok {lo hi v : Nat} (h₁ : lo ≤ v) (h₂ : v ≤ hi) : ∃ g : Rng, (g.draw lo hi).1 = .ok v :=
  ⟨{ script := [.ok v], taken := 0 }, by rw [Rng.draw_ok_script lo hi rfl, intoRange_of_mem h₁ h₂]⟩

/-- Some RNG answers `fail` next, whatever the range. -/
theorem Rng.exists_draw_fail (lo hi : Nat) : ∃ g : Rng, (g.draw lo hi).1 = .fail :=
  ⟨{ script := [.fail], taken := 0 }, by rw [Rng.draw_fail_script lo hi rfl]⟩

/-- Settles O43: the range by `Rng.draw_mem`, and each possible answer by a script that holds it. -/
theorem drawsStayInRange : Obligations.DrawsStayInRange := by
  unfold Obligations.DrawsStayInRange
  exact fun lo hi h => ⟨fun _ _ _ hd => Rng.draw_mem h hd, fun _ => Rng.exists_draw_ok, Rng.exists_draw_fail lo hi⟩

end Sys2Proof.Machine

namespace Sys2Proof.Machine

open Sys2Proof

/-! ## The address map and the rules of the host port (20_memory.md R64, R66, R72) -/

@[simp] theorem regAt_ctl (n : Nat) (c : CtlReg) : regAt n (regOffset (.ctl c)) = some (.ctl c) := by
  cases c <;> rfl

/-- The 64 words of a region are the most a register can fill, so the offset of a limb stays in its region. -/
theorem regAt_limb {n i : Nat} (z : BigName) (hi : i < n) (hn : n ≤ 64) :
    regAt n (regOffset (.limb z i)) = some (.limb z i) := by
  have hbig : bigOfRegion (regionOf z / 0x100) = some z := by cases z <;> rfl
  have hz : regionOf z % 0x100 = 0 ∧ 0x100 ≤ regionOf z ∧ regionOf z ≤ 0x600 := by cases z <;> decide
  have hoff : (regOffset (.limb z i)).toNat = regionOf z + 4 * i := by
    rw [regOffset, BitVec.toNat_ofNat]; omega
  have hword : (regionOf z + 4 * i) % 0x100 / 4 = i := by omega
  have hregion : (regionOf z + 4 * i) / 0x100 = regionOf z / 0x100 := by omega
  simp only [regAt, hoff, hword, hregion, hbig]
  rw [if_neg (by omega), if_neg (by omega), if_pos hi]
  rfl

theorem State.access_read_ctl (s : State) (c : CtlReg) :
    s.access (.read (regOffset (.ctl c)) 4) = s.answer (.data (s.ctlWord c)) := by
  simp [State.access, State.hostRead]

theorem State.access_write_ctl (s : State) (c : CtlReg) (v : Word) :
    s.access (.write (regOffset (.ctl c)) 4 0xF#4 v) = s.writeCtl v c := by
  simp [State.access, State.hostWrite]

theorem State.Shaped.access_read_limb {s : State} (h : s.Shaped) (z : BigName) {i : Nat} (hi : i < s.cfg.limbs) :
    s.access (.read (regOffset (.limb z i)) 4) = s.readLimb z i := by
  simp [State.access, State.hostRead, regAt_limb z hi (Config.limbs_bounds h.cfg_ok).2]

theorem State.Shaped.access_write_limb {s : State} (h : s.Shaped) (z : BigName) {i : Nat} (hi : i < s.cfg.limbs)
    (v : Word) : s.access (.write (regOffset (.limb z i)) 4 0xF#4 v) = s.writeLimb z i v := by
  simp [State.access, State.hostWrite, regAt_limb z hi (Config.limbs_bounds h.cfg_ok).2]

theorem State.writeIfIdle_of_idle {s : State} (hp : s.phase = .idle) (t : State) :
    s.writeIfIdle t = t.answer .written := by
  simp [State.writeIfIdle, hp, Phase.isBusy]

theorem State.access_write_ctl_of_idle {s t : State} {c : CtlReg} {v : Word} (hp : s.phase = .idle)
    (h : s.writeCtl v c = s.writeIfIdle t) : s.access (.write (regOffset (.ctl c)) 4 0xF#4 v) = t.answer .written := by
  rw [State.access_write_ctl, h, State.writeIfIdle_of_idle hp]

@[simp] theorem State.answer_big (s : State) (ans : Answer) (z : BigName) : (s.answer ans).big z = s.big z := by
  cases z <;> rfl

/-! ## Registers after reset -/

theorem State.resetWith_big (c : Config) (z : BigName) : (State.resetWith c).big z = BigReg.uninit c.limbs := by
  cases z <;> rfl

theorem BigReg.init_of_mem_uninit {n : Nat} {l : Limb} (h : l ∈ BigReg.uninit n) : l.init = false := by
  rw [List.eq_of_mem_replicate h]; rfl

/-- Settles O49: the storage's rules hold of registers that are UNINIT throughout, and the phase is `IDLE`. -/
theorem invariantHoldsAtReset : Obligations.InvariantHoldsAtReset := by
  unfold Obligations.InvariantHoldsAtReset
  refine fun c hc => ⟨State.StorageInv.inv_of_idle ⟨⟨hc, fun z => ?_⟩, fun z _ => .inr fun l hl => ?_, ?_, ?_, rfl⟩
    rfl rfl, rfl⟩
  · rw [State.resetWith_big]; exact BigReg.uninit_length _
  · rw [State.resetWith_big] at hl; exact BigReg.init_of_mem_uninit hl
  · simp [State.resetWith, Status.reset]
  · simp [State.resetWith, Status.reset]

/-! ## The words of STATUS, CTRL, HWCFG and the 16-bit parameters (10_state.md R27, R30, R32, R34, R35) -/

theorem Phase.isBusy_iff {p : Phase} : p.isBusy = true ↔ ∃ w, p = .busy w := by
  cases p <;> simp [Phase.isBusy]

theorem Status.word_flags (st : Status) (busy : Bool) :
    (st.word busy).getLsbD 0 = busy ∧ (st.word busy).getLsbD 1 = st.done ∧ (st.word busy).getLsbD 2 = st.err ∧
      (st.word busy).getLsbD 3 = st.prime ∧ (st.word busy).getLsbD 4 = st.xneg ∧
      (st.word busy).getLsbD 5 = st.yneg := by
  simp only [Status.word, BitVec.getLsbD_append]
  simp

/-- Above its six flags, STATUS is a concatenation that no flag enters. -/
theorem Status.word_extractLsb'_high (st : Status) (busy : Bool) (a n : Nat) :
    (st.word busy).extractLsb' (6 + a) n = (0#16 ++ st.errcode.code ++ 0#2).extractLsb' a n := by
  refine BitVec.eq_of_getLsbD_eq fun i hi => ?_
  simp only [BitVec.getLsbD_extractLsb', Status.word]
  iterate 6 rw [BitVec.getLsbD_append, if_neg (by omega)]
  congr 2; omega

theorem Status.word_errcode (st : Status) (busy : Bool) : (st.word busy).extractLsb' 8 8 = st.errcode.code := by
  rw [st.word_extractLsb'_high busy 2 8]
  cases st.errcode <;> rfl

theorem Status.word_reserved (st : Status) (busy : Bool) :
    (st.word busy).extractLsb' 6 2 = 0#2 ∧ (st.word busy).extractLsb' 16 16 = 0#16 := by
  rw [st.word_extractLsb'_high busy 0 2, st.word_extractLsb'_high busy 10 16]
  cases st.errcode <;> decide

theorem ctrlWord_fields (irqEn : Bool) :
    (ctrlWord irqEn).getLsbD 0 = irqEn ∧ (ctrlWord irqEn).extractLsb' 1 31 = 0#31 := by
  cases irqEn <;> decide

theorem setWidth_half (v : Half) : v.setWidth 32 = 0#16 ++ v :=
  BitVec.setWidth_eq_append (by decide)

/-- HWCFG as one number: the version 1 above the number of limbs. -/
theorem State.hwcfg_eq {s : State} (hc : s.cfg.wellFormed = true) :
    s.ctlWord .hwcfg = BitVec.ofNat 32 ((1 <<< 16) ||| (s.cfg.opw / 32)) := by
  have hn : s.cfg.opw / 32 ≤ 64 := (Config.limbs_bounds hc).2
  have hor : (1 <<< 16) ||| (s.cfg.opw / 32) = 0x10000 + s.cfg.opw / 32 :=
    (Nat.shiftLeft_add_eq_or_of_lt (by omega) 1).symm
  refine BitVec.eq_of_toNat_eq ?_
  rw [State.ctlWord, BitVec.toNat_append, BitVec.toNat_ofNat, BitVec.toNat_ofNat, BitVec.toNat_ofNat, Config.limbs,
    Nat.mod_eq_of_lt (by omega : s.cfg.opw / 32 < 2 ^ 16), Nat.mod_eq_of_lt (by omega : _ < 2 ^ 32)]

/-- Settles O9: the answer is the STATUS word, read field by field. -/
theorem statusReadsItsFields : Obligations.StatusReadsItsFields := by
  unfold Obligations.StatusReadsItsFields
  intro s
  obtain ⟨hbusy, hflags⟩ := s.status.word_flags s.phase.isBusy
  obtain ⟨hdone, herr, hprime, hxneg, hyneg⟩ := hflags
  obtain ⟨hlow, hhigh⟩ := s.status.word_reserved s.phase.isBusy
  refine ⟨s.status.word s.phase.isBusy, s.access_read_ctl .status, ?_, hdone, herr, hprime, hxneg, hyneg, hlow, hhigh,
    ?_⟩
  · rw [hbusy]; exact Phase.isBusy_iff
  · rw [Status.word_errcode]; cases s.status.errcode <;> rfl

/-- Settles O6: the registers are UNINIT throughout, and every other row of the table is the value `resetWith` gives. -/
theorem resetLeavesTheResetTable : Obligations.ResetLeavesTheResetTable := by
  unfold Obligations.ResetLeavesTheResetTable
  have hctrl : ctrlWord false = 0#32 := by decide
  have hstatus : Status.reset.word false = 0#32 := by decide
  refine fun c hc => ⟨rfl, fun z => ?_, rfl, State.hwcfg_eq (s := .resetWith c) hc, hctrl, hstatus, rfl, rfl, rfl, rfl,
    rfl, rfl, rfl⟩
  rw [State.resetWith_big]
  exact ⟨BigReg.uninit_length _, fun l hl => BigReg.init_of_mem_uninit hl⟩

/-- Settles O15: ID is a constant, HWCFG depends on the configuration alone, and both writes meet the refusal of 20_memory.md R71. -/
theorem identificationRegistersAreConstant : Obligations.IdentificationRegistersAreConstant := by
  unfold Obligations.IdentificationRegistersAreConstant
  intro s hc
  have hn : s.cfg.opw / 32 ≤ 64 := (Config.limbs_bounds hc).2
  refine ⟨⟨_, s.access_read_ctl .id, rfl⟩, ⟨_, s.access_read_ctl .hwcfg, ?_, ?_, fun h => ?_⟩, ?_⟩
  · rw [show (s.ctlWord .hwcfg).extractLsb' 0 16 = BitVec.ofNat 16 s.cfg.limbs from
      (BitVec.extractLsb'_append_of_lt (k := 1) (i := 0) Nat.one_pos).trans BitVec.extractLsb'_eq_self]
    exact Nat.mod_eq_of_lt (by unfold Config.limbs; omega)
  · exact BitVec.extractLsb'_append_of_eq (k := 1) (i := 1) rfl
  · rw [State.hwcfg_eq hc, h]; rfl
  · rintro off v (rfl | rfl)
    · exact s.access_write_ctl .id v
    · exact s.access_write_ctl .hwcfg v

@[simp] theorem State.issue_cmd (s : State) (w : Word) : (s.issue w).cmd = w := by
  unfold State.issue; split <;> rfl

/-- What a register reads as after a write to it, by the state the write left. -/
theorem State.read_after_write_ctl {s t : State} {c : CtlReg} {v : Word}
    (h : s.access (.write (regOffset (.ctl c)) 4 0xF#4 v) = t) :
    ((s.access (.write (regOffset (.ctl c)) 4 0xF#4 v)).access (.read (regOffset (.ctl c)) 4)).answers.head? =
      some (.data (t.ctlWord c)) := by
  rw [h, State.access_read_ctl]; rfl

/-- Settles O16: each access is the rule of its register, and the reserved halves are those of `setWidth_half`. -/
theorem parameterRegistersReadBack : Obligations.ParameterRegistersReadBack := by
  unfold Obligations.ParameterRegistersReadBack
  refine ⟨fun s v hp => ?_, fun s => ?_⟩
  · have hr := State.access_write_ctl_of_idle (c := .rounds) (v := v) hp rfl
    have hn := State.access_write_ctl_of_idle (c := .numbits) (v := v) hp rfl
    have hl := State.access_write_ctl_of_idle (c := .limit) (v := v) hp rfl
    have hc := State.access_write_ctl_of_idle (c := .cmd) (v := v) hp rfl
    have hcmd : ((s.issue v).answer .written).ctlWord .cmd = v := s.issue_cmd v
    rw [← setWidth_half]
    exact ⟨hr, hn, hl, State.read_after_write_ctl hr, State.read_after_write_ctl hn, State.read_after_write_ctl hl,
      (State.read_after_write_ctl hc).trans (by rw [hcmd])⟩
  · rw [← setWidth_half, ← setWidth_half]
    exact ⟨⟨_, s.access_read_ctl .ctrl, ctrlWord_fields s.irqEn⟩, s.access_read_ctl .rounds, s.access_read_ctl .numbits,
      s.access_read_ctl .limit, s.access_read_ctl .cmd, s.access_read_ctl .attempts⟩

/-! ## The engine's step, by what it finds (40_command_cycle.md R112 to R114; 10_state.md R29) -/

theorem State.engineStep_of_decode {s : State} {w : Word} {i : Instr} (hp : s.phase = .busy w) (hh : s.engine ≠ .held)
    (hd : decodeWord w = .ok i) : s.engineStep = exec i s := by
  simp [State.engineStep, hp, hh, hd]

theorem State.engineStep_of_held {s : State} (hh : s.engine = .held) : s.engineStep = .next s := by
  unfold State.engineStep
  cases hp : s.phase <;> simp [hh]

theorem tableWord_toNat (w : Word) : tableWord 32 w.toNat = w := by
  rw [tableWord, Nat.mod_eq_of_lt w.isLt, BitVec.ofNat_toNat, BitVec.setWidth_eq]

/-- Settles O20: whoever lets the engine move, its step is `engineStep`. -/
theorem engineTurnRunsTheDecodedCommand : Obligations.EngineTurnRunsTheDecodedCommand := by
  unfold Obligations.EngineTurnRunsTheDecodedCommand
  refine ⟨fun s w i hp hh hd => ⟨fun rest ht => ?_, fun ht => ?_⟩, fun s w i hd => ?_⟩
  · simp only [step, ht]
    exact State.engineStep_of_decode hp hh hd
  · have hready : s.engineReady = true := engineReady_iff.2 ⟨Phase.isBusy_iff.2 ⟨w, hp⟩, hh⟩
    simp only [step, ht, hready]
    exact State.engineStep_of_decode hp hh hd
  · rw [State.withFetchWord, tableWord_toNat]
    exact State.engineStep_of_decode (s := s.startCommand w) rfl (by simp) hd

/-! ## Initialisation marks (10_state.md R29) -/

theorem setLimb_getElem? {z : BigReg} {i : Nat} (hi : i < z.length) (v : Word) :
    (setLimb z i v)[i]? = some { val := v, init := true } :=
  List.getElem?_set_self hi

theorem limbAt_of_getElem? {z : BigReg} {i : Nat} {l : Limb} (h : z[i]? = some l) : limbAt z i = l := by
  rw [limbAt, h]; rfl

theorem State.readLimb_of_uninit {s : State} {z : BigName} {i : Nat} (hu : (limbAt (s.big z) i).init = false) :
    s.readLimb z i =
      { s with
        faults := { s.faults with uninitRead := true }
        answers := .data (Config.freeUninit s.freeReads) :: s.answers
        freeReads := s.freeReads + 1 } :=
  if_neg (by simp [hu])

theorem commitBig_ready (n v : Nat) (old : BigReg) : (commitBig n (some v) old).ready = true :=
  BigReg.ofNat_ready n v

theorem State.uninitIssue_of_mem {s : State} {w : Word} {i : Instr} {z : BigName} {l : Limb}
    (hd : decodeWord w = .ok i) (hz : z ∈ readsOf i) (hl : l ∈ s.big z) (hu : l.init = false) :
    s.uninitIssue w = true := by
  have hready : (s.big z).ready = false := List.all_eq_false.2 ⟨l, hl, by simp [hu]⟩
  simp only [State.uninitIssue, hd]
  exact List.any_eq_true.2 ⟨z, hz, by simp [hready]⟩

theorem State.issue_of_uninit {s : State} {w : Word} (h : s.uninitIssue w = true) :
    s.issue w = { s.startCommand w with engine := .held, faults := { s.faults with uninitRead := true } } :=
  if_pos h

/-- Settles O19: one rule for each event that sets, clears or meets a mark. -/
theorem initialisationMarksAndUninitRead : Obligations.InitialisationMarksAndUninitRead := by
  unfold Obligations.InitialisationMarksAndUninitRead
  refine ⟨fun s z l hl => ?_, fun s z => ?_, fun s z i v hs hp hw hi => ?_, fun s o v => ?_, fun s z i l hs hl hu => ?_,
    fun s w i z l hp hd hz hl hu => ?_⟩
  · rw [State.hardReset_big] at hl; exact BigReg.init_of_mem_uninit hl
  · cases z <;> rfl
  · rw [hs.access_write_limb z hi, State.writeLimb, if_pos hw, State.writeIfIdle_of_idle hp]
    simp only [State.answer_big, State.setBig_big_same]
    exact setLimb_getElem? (by rwa [hs.limbs z]) v
  · refine ⟨fun h => ?_, fun h => ?_, fun h => ?_⟩ <;> simp only [State.completeOk_r, State.completeOk_x,
      State.completeOk_y, h, commitBig_ready]
  · have hi : i < s.cfg.limbs := by
      rw [← hs.limbs z]; exact (List.getElem?_eq_some_iff.1 hl).1
    exact ⟨_, (hs.access_read_limb z hi).trans (State.readLimb_of_uninit (by rw [limbAt_of_getElem? hl, hu]))⟩
  · have ht : s.access (.write 0x010#12 4 0xF#4 w) = (s.issue w).answer .written :=
      State.access_write_ctl_of_idle (c := .cmd) hp rfl
    rw [ht, State.issue_of_uninit (State.uninitIssue_of_mem hd hz hl hu)]
    exact ⟨rfl, rfl, State.engineStep_of_held rfl⟩

/-! ## What writes an output (10_state.md R23, R24, R28) -/

theorem sameOutputs_refl (s : State) : sameOutputs s s := ⟨rfl, rfl, rfl, rfl, rfl, rfl⟩

theorem sameOutputs_issue (s : State) (w : Word) : sameOutputs s (s.issue w) := by
  unfold State.issue; split <;> exact ⟨rfl, rfl, rfl, rfl, rfl, rfl⟩

theorem sameOutputs_writeCtrl (s : State) (v : Word) : sameOutputs s (s.writeCtrl v) := by
  obtain h | h := s.writeCtrl_cases v <;> rw [h] <;> exact ⟨rfl, rfl, rfl, rfl, rfl, rfl⟩

theorem sameOutputs_writeStatus (s : State) (v : Word) : sameOutputs s (s.writeStatus v) := by
  obtain ⟨d, hd⟩ := s.status.atWrite_eq v
  rw [State.writeStatus, hd]; exact ⟨rfl, rfl, rfl, rfl, rfl, rfl⟩

theorem sameOutputs_writeOperand (s : State) {z : BigName} (hw : hostWritable z = true) (v : BigReg) :
    sameOutputs s (s.setBig z v) := by
  cases z with
  | a | b | m => exact ⟨rfl, rfl, rfl, rfl, rfl, rfl⟩
  | r | x | y => cases hw

/-- The host has no access that changes an output (20_memory.md R71). -/
theorem sameOutputs_access (s : State) (acc : Access) : sameOutputs s (s.access acc) := by
  cases access_ends s acc with
  | ctrl v ht => rw [ht]; exact sameOutputs_writeCtrl s v
  | status v ht => rw [ht]; exact sameOutputs_writeStatus s v
  | issue v _ ht => rw [ht]; exact sameOutputs_issue s v
  | limb z i v _ hw ht => rw [ht]; exact sameOutputs_writeOperand s hw _
  | refused ht => rw [ht]; exact sameOutputs_refl s
  | read w ht => rw [ht]; exact sameOutputs_refl s
  | uninit z i _ ht => rw [ht]; exact sameOutputs_refl s
  | rounds v _ ht => rw [ht]; exact sameOutputs_refl s
  | numbits v _ ht => rw [ht]; exact sameOutputs_refl s
  | limit v _ ht => rw [ht]; exact sameOutputs_refl s

theorem sameOutputs_hostStep (s : State) : sameOutputs s s.hostStep := by
  obtain h | ⟨prog, acc, h⟩ := hostStep_cases s <;> rw [h]
  · exact sameOutputs_refl s
  · exact sameOutputs_access { s with program := prog } acc

/-- The outputs that 30_encoding.md R97 does not list for `i` are as before. -/
def unlistedOutputsKept (i : Instr) (s t : State) : Prop :=
  (i = .mrtest → t.r = s.r) ∧
  (i ≠ .extgcd → t.x = s.x ∧ t.y = s.y ∧ t.status.xneg = s.status.xneg ∧ t.status.yneg = s.status.yneg) ∧
  (i ≠ .mrtest → t.status.prime = s.status.prime)

theorem OutputsListed.kept {i : Instr} {o : Outputs} (ho : OutputsListed i o) (s : State) :
    unlistedOutputsKept i s (s.completeOk o) := by
  refine ⟨fun hi => ?_, fun hi => ?_, fun hi => ?_⟩
  · simp [ho.mrtest hi, commitBig]
  · obtain ⟨hx, hy, hxneg, hyneg⟩ := ho.signs hi
    simp [hx, hy, hxneg, hyneg, commitBig, Status.atCommit]
  · simp [(ho.others hi).1, Status.atCommit]

theorem State.completeOk_succeeded (s : State) (o : Outputs) : (s.completeOk o).succeeded :=
  ⟨rfl, rfl, rfl, rfl, rfl⟩

/-- A command writes outputs only where it commits; an error, a validation and a rejected attempt write none. -/
theorem exec_outputs {i : Instr} {s t : State} (h : exec i s = .next t) :
    sameOutputs s t ∨ t.succeeded ∧ unlistedOutputsKept i s t := by
  cases exec_ends h with
  | error code n g ht => rw [ht]; exact .inl ⟨rfl, rfl, rfl, rfl, rfl, rfl⟩
  | begun ht => rw [ht]; exact .inl ⟨rfl, rfl, rfl, rfl, rfl, rfl⟩
  | rejected g ht => rw [ht]; exact .inl ⟨rfl, rfl, rfl, rfl, rfl, rfl⟩
  | commit o n g fits ht ho => rw [ht]; exact .inr ⟨State.completeOk_succeeded _ o, ho.kept _⟩

theorem engineStep_outputs {s t : State} (h : s.engineStep = .next t) :
    sameOutputs s t ∨
      ∃ w i, s.phase = .busy w ∧ decodeWord w = .ok i ∧ t.succeeded ∧ unlistedOutputsKept i s t := by
  obtain ⟨-, rfl⟩ | ⟨w, hp, -, ⟨-, -, rfl⟩ | ⟨i, hd, hx⟩⟩ := engineStep_next h
  · exact .inl (sameOutputs_refl _)
  · exact .inl ⟨rfl, rfl, rfl, rfl, rfl, rfl⟩
  · exact (exec_outputs hx).imp_right fun hc => ⟨w, i, hp, hd, hc⟩

/-- Settles O52: the host and the turns write no output, and the engine writes one only at a commit. -/
theorem onlyCommitsWriteOutputs : Obligations.OnlyCommitsWriteOutputs := by
  unfold Obligations.OnlyCommitsWriteOutputs
  intro s t h
  obtain ⟨rest, -, rfl | he | ⟨hr, -⟩⟩ := step_next h
  · exact .inl (sameOutputs_hostStep { s with turns := rest })
  · exact (engineStep_outputs he).imp_right .inr
  · exact .inr (.inl hr)

/-! ## The two halves of a search command (44_random_search.md R182, R191) -/

theorem execRandprime_searching {s : State} (hs : s.engine = .searching) :
    execRandprime s = .next (s.attempt (2 ^ (s.numBitsOperand - 1)) (2 ^ s.numBitsOperand - 1)
      fun c g => isProbablePrime c s.roundsOperand g) := by
  simp only [execRandprime, hs]

theorem execRandprime_validates {s : State} (hs : s.engine ≠ .searching) :
    execRandprime s = if s.numBitsOperand = 0 ∨ s.cfg.opw < s.numBitsOperand then
      .next (s.completeErr .invalidBitLength) else .next s.beginSearch := by
  unfold execRandprime
  split
  · next h => exact absurd h hs
  · rfl

theorem execRandcoprime_searching {s : State} (hs : s.engine = .searching) :
    execRandcoprime s = .next (s.attempt 0 (s.value .m - 1) (acceptCoprime (s.value .m))) := by
  simp only [execRandcoprime, hs]

theorem execRandcoprime_validates {s : State} (hs : s.engine ≠ .searching) :
    execRandcoprime s = if s.value .m ≤ 2 then .next (s.completeErr .invalidOperand) else .next s.beginSearch := by
  unfold execRandcoprime
  split
  · next h => exact absurd h hs
  · rfl

/-! ## Commands and the STATUS flags (10_state.md R28) -/

/-- STATUS replaced, and nothing else. -/
def State.withStatus (s : State) (st : Status) : State := { s with status := st }

@[simp] theorem State.withStatus_engine (s : State) (st : Status) : (s.withStatus st).engine = s.engine := rfl
@[simp] theorem State.withStatus_status (s : State) (st : Status) : (s.withStatus st).status = st := rfl
@[simp] theorem State.withStatus_rng (s : State) (st : Status) : (s.withStatus st).rng = s.rng := rfl
@[simp] theorem State.withStatus_atCeiling (s : State) (st : Status) : (s.withStatus st).atCeiling = s.atCeiling := rfl
@[simp] theorem State.withStatus_roundsOperand (s : State) (st : Status) :
    (s.withStatus st).roundsOperand = s.roundsOperand := rfl
@[simp] theorem State.withStatus_numBitsOperand (s : State) (st : Status) :
    (s.withStatus st).numBitsOperand = s.numBitsOperand := rfl
@[simp] theorem State.withStatus_value (s : State) (st : Status) (z : BigName) :
    (s.withStatus st).value z = s.value z := by cases z <;> rfl

/-- How a step of `i` that leaves the engine at `e` turns the old STATUS into the new one. None of the three ways looks
at a flag to choose what it writes. -/
inductive FlagEffect (i : Instr) (e : Engine) : (Status → Status) → Prop where
  | stays (hi : isSearch i = true) (he : e ≠ .empty) : FlagEffect i e id
  | error (code : ErrCode) (hi : i ≠ .extgcd) (he : e = .empty) : FlagEffect i e (·.atError code)
  | commit (prime xneg yneg : Option Bool) (he : e = .empty) (hprime : prime.isSome = decide (i = .mrtest))
      (hxneg : xneg.isSome = decide (i = .extgcd)) (hyneg : yneg.isSome = decide (i = .extgcd)) :
      FlagEffect i e (·.atCommit prime xneg yneg)

/-- A step of `i` that answers the same next state at every STATUS, but for STATUS. -/
def RunsAlike (i : Instr) (run : Status → Host.Outcome State Fault Refusal) : Prop :=
  ∃ (t : State) (f : Status → Status), (∀ st, run st = .next (t.withStatus (f st))) ∧ FlagEffect i t.engine f

section
variable {i : Instr} {run : Status → Host.Outcome State Fault Refusal} (s : State)

theorem RunsAlike.of_stays (hi : isSearch i = true) (he : s.engine ≠ .empty)
    (h : ∀ st, run st = .next (s.withStatus st)) : RunsAlike i run :=
  ⟨s, id, h, .stays hi he⟩

theorem RunsAlike.of_completeErr (code : ErrCode) (hi : i ≠ .extgcd)
    (h : ∀ st, run st = .next ((s.withStatus st).completeErr code)) : RunsAlike i run :=
  ⟨s.completeErr code, _, h, .error code hi rfl⟩

theorem RunsAlike.of_completeOk (o : Outputs) (hprime : o.prime.isSome = decide (i = .mrtest))
    (hxneg : o.xneg.isSome = decide (i = .extgcd)) (hyneg : o.yneg.isSome = decide (i = .extgcd))
    (h : ∀ st, run st = .next ((s.withStatus st).completeOk o)) : RunsAlike i run :=
  ⟨s.completeOk o, _, h, .commit o.prime o.xneg o.yneg rfl hprime hxneg hyneg⟩

theorem RunsAlike.of_attempt {lo hi : Nat} {accept : Nat → Rng → Verdict × Rng} (hsr : isSearch i = true)
    (hs : s.engine = .searching) (h : ∀ st, run st = .next ((s.withStatus st).attempt lo hi accept)) :
    RunsAlike i run := by
  have hx : i ≠ .extgcd := by rintro rfl; cases hsr
  have hm : i ≠ .mrtest := by rintro rfl; cases hsr
  cases hc : s.atCeiling with
  | true => exact .of_completeErr s .attemptsExhausted hx fun st => by simp [h, State.attempt, hc]
  | false =>
    rcases hd : s.rng.draw lo hi with ⟨ans, g⟩
    cases ans with
    | fail =>
      refine .of_completeErr { s with attempts := satInc s.attempts, rng := g } .randomnessFailure hx fun st => ?_
      simp only [h, State.attempt, State.withStatus_atCeiling, State.withStatus_rng, hc, hd]; rfl
    | ok c =>
      have hend : ∀ st, run st = .next (State.endAttempt
          (State.withStatus { s with attempts := satInc s.attempts, rng := (accept c g).2 } st) c (accept c g).1) := by
        intro st
        simp only [h, State.attempt, State.withStatus_atCeiling, State.withStatus_rng, hc, hd]; rfl
      cases hv : (accept c g).1 with
      | accept => exact .of_completeOk _ { r := some c } (by simp [hm]) (by simp [hx]) (by simp [hx]) (hv ▸ hend)
      | reject => exact .of_stays _ hsr (by simp [hs]) (hv ▸ hend)
      | drawFailed => exact .of_completeErr _ .randomnessFailure hx (hv ▸ hend)

end

/-- Every choice of a command is made by its operands, the engine and the draws. -/
theorem exec_runsAlike (i : Instr) (s : State) : RunsAlike i fun st => exec i (s.withStatus st) := by
  cases i with
  | modexp =>
    by_cases hm : s.value .m = 0
    · exact .of_completeErr s .invalidModulus (by decide) fun st => by simp [exec, execModexp, hm]
    · exact .of_completeOk s { r := some (modexp (s.value .a) (s.value .b) (s.value .m)) } rfl rfl rfl fun st => by
        simp [exec, execModexp, hm]
  | extgcd =>
    exact .of_completeOk (s.checkFit (coeffsFit s.cfg.opw (extgcd (s.value .a) (s.value .b))))
      (extgcdOutputs (extgcd (s.value .a) (s.value .b))) rfl rfl rfl fun _ => rfl
  | modinv =>
    by_cases hm : s.value .m = 0
    · exact .of_completeErr s .invalidModulus (by decide) fun st => by simp [exec, execModinv, hm]
    cases hv : modinv (s.value .a) (s.value .m) with
    | none => exact .of_completeErr s .noModularInverse (by decide) fun st => by simp [exec, execModinv, hm, hv]
    | some v =>
      refine .of_completeOk (s.checkFit (decide (0 ≤ v ∧ v < (s.value .m : Int)))) { r := some v.toNat } rfl rfl rfl
        fun st => ?_
      simp only [exec, execModinv, State.withStatus_value, hm, hv]
      rfl
  | mrtest =>
    rcases hv : isProbablePrime (s.value .a) s.roundsOperand s.rng with ⟨verdict, g⟩
    cases verdict with
    | accept =>
      refine .of_completeOk { s with rng := g } { prime := some true } rfl rfl rfl fun st => ?_
      simp only [exec, execMrtest, State.withStatus_value, State.withStatus_roundsOperand, State.withStatus_rng, hv]
      rfl
    | reject =>
      refine .of_completeOk { s with rng := g } { prime := some false } rfl rfl rfl fun st => ?_
      simp only [exec, execMrtest, State.withStatus_value, State.withStatus_roundsOperand, State.withStatus_rng, hv]
      rfl
    | drawFailed =>
      refine .of_completeErr { s with rng := g } .randomnessFailure (by decide) fun st => ?_
      simp only [exec, execMrtest, State.withStatus_value, State.withStatus_roundsOperand, State.withStatus_rng, hv]
      rfl
  | randprime =>
    by_cases hs : s.engine = .searching
    · have hrun := fun st => execRandprime_searching (s := s.withStatus st) hs
      simp only [State.withStatus_numBitsOperand, State.withStatus_roundsOperand] at hrun
      exact .of_attempt s rfl hs hrun
    have hrun := fun st => execRandprime_validates (s := s.withStatus st) hs
    by_cases hv : s.numBitsOperand = 0 ∨ s.cfg.opw < s.numBitsOperand
    · exact .of_completeErr s .invalidBitLength (by decide) fun st => (hrun st).trans (if_pos hv)
    · exact .of_stays s.beginSearch rfl (by simp) fun st => (hrun st).trans (if_neg hv)
  | randcoprime =>
    by_cases hs : s.engine = .searching
    · have hrun := fun st => execRandcoprime_searching (s := s.withStatus st) hs
      simp only [State.withStatus_value] at hrun
      exact .of_attempt s rfl hs hrun
    have hrun := fun st => execRandcoprime_validates (s := s.withStatus st) hs
    by_cases hv : s.value .m ≤ 2
    · exact .of_completeErr s .invalidOperand (by decide) fun st => (hrun st).trans (if_pos (by simpa using hv))
    · exact .of_stays s.beginSearch rfl (by simp) fun st => (hrun st).trans (if_neg (by simpa using hv))

/-- A flag that is written where `p` holds, and only there, does not depend on its old value there, and elsewhere keeps
it. -/
theorem getD_of_isSome_eq_decide {o : Option Bool} {p : Prop} [Decidable p] (h : o.isSome = decide p) :
    (p → ∀ old old', o.getD old = o.getD old') ∧ (¬ p → ∀ old, o.getD old = old) := by
  cases o with
  | none => exact ⟨fun hp => absurd hp (of_decide_eq_false h.symm), fun _ _ => rfl⟩
  | some v => exact ⟨fun _ _ _ => rfl, fun hp => absurd (of_decide_eq_true h.symm) hp⟩

/-- Settles O47: both runs are one run at two STATUS values, and each clause reads one way of `FlagEffect`. -/
theorem statusFlagsDoNotSteerCommands : Obligations.StatusFlagsDoNotSteerCommands := by
  unfold Obligations.StatusFlagsDoNotSteerCommands
  intro i s st
  obtain ⟨t, f, hrun, hf⟩ := exec_runsAlike i s
  refine ⟨t.withStatus (f s.status), f st, hrun s.status, hrun st, ?_⟩
  simp only [State.withStatus_engine, State.withStatus_status]
  cases hf with
  | stays hs he =>
    have hm : i ≠ .mrtest := by rintro rfl; cases hs
    have hx : i ≠ .extgcd := by rintro rfl; cases hs
    simp [he, hm, hx]
  | error code hx he => simp [he, hx, Status.atError]
  | commit prime xneg yneg he hprime hxneg hyneg =>
    obtain ⟨hp, hp'⟩ := getD_of_isSome_eq_decide hprime
    obtain ⟨hx, hx'⟩ := getD_of_isSome_eq_decide hxneg
    obtain ⟨hy, hy'⟩ := getD_of_isSome_eq_decide hyneg
    refine ⟨fun _ => ⟨rfl, rfl, rfl⟩, fun h => absurd he h, fun hi _ => hp hi _ _, ?_, fun hi => ⟨hx hi _ _, hy hi _ _⟩,
      fun hi => ⟨hx' hi _, hy' hi _, hx' hi _, hy' hi _⟩⟩
    rintro (hi | herr)
    · exact ⟨hp' hi _, hp' hi _⟩
    · cases herr

end Sys2Proof.Machine

namespace Sys2Proof.Machine

open Sys2Proof

/-! ## While a command runs (20_memory.md R79, R80; 10_state.md R37) -/

/-- What a move that leaves the command running keeps: the command word, the operands and the outputs, with a count that
does not fall. -/
def commandKept (s t : State) : Prop :=
  t.phase = s.phase ∧ sameOutputs s t ∧ s.attempts.toNat ≤ t.attempts.toNat ∧
    t.a = s.a ∧ t.b = s.b ∧ t.m = s.m ∧ t.rounds = s.rounds ∧ t.numbits = s.numbits ∧ t.limit = s.limit

theorem commandKept_refl (s : State) : commandKept s s :=
  ⟨rfl, sameOutputs_refl s, Nat.le_refl _, rfl, rfl, rfl, rfl, rfl, rfl⟩

theorem toNat_le_satInc (n : Word) : n.toNat ≤ (satInc n).toNat := by
  unfold satInc
  split
  · next h => rw [h]
  · bv_omega

theorem State.writeCtrl_idle_or_kept (s : State) (v : Word) :
    (s.writeCtrl v).phase = .idle ∨ commandKept s (s.writeCtrl v) := by
  obtain h | h := s.writeCtrl_cases v <;> rw [h]
  · exact .inl rfl
  · exact .inr (commandKept_refl s)

/-- While `BUSY` the host can end the command by a soft reset, and do nothing else to it. -/
theorem State.access_idle_or_kept {s : State} {w : Word} (hp : s.phase = .busy w) (acc : Access) :
    (s.access acc).phase = .idle ∨ commandKept s (s.access acc) := by
  have hbusy : s.phase ≠ .idle := by simp [hp]
  cases access_ends s acc with
  | refused ht => rw [ht]; exact .inr (commandKept_refl s)
  | read _ ht => rw [ht]; exact .inr (commandKept_refl s)
  | uninit _ _ _ ht => rw [ht]; exact .inr (commandKept_refl s)
  | ctrl v ht => rw [ht]; exact s.writeCtrl_idle_or_kept v
  | status v ht =>
    rw [ht]
    exact .inr ⟨rfl, sameOutputs_writeStatus s v, Nat.le_refl _, rfl, rfl, rfl, rfl, rfl, rfl⟩
  | issue _ hi => exact absurd hi hbusy
  | rounds _ hi => exact absurd hi hbusy
  | numbits _ hi => exact absurd hi hbusy
  | limit _ hi => exact absurd hi hbusy
  | limb _ _ _ hi => exact absurd hi hbusy

theorem State.hostStep_idle_or_kept {s : State} {w : Word} (hp : s.phase = .busy w) :
    s.hostStep.phase = .idle ∨ commandKept s s.hostStep := by
  obtain h | ⟨prog, acc, h⟩ := hostStep_cases s <;> rw [h]
  · exact .inr (commandKept_refl s)
  · exact State.access_idle_or_kept (s := { s with program := prog }) hp acc

/-- A command that does not complete has passed validation or rejected a candidate. -/
theorem exec_idle_or_kept {i : Instr} {s t : State} (h : exec i s = .next t) : t.phase = .idle ∨ commandKept s t := by
  cases exec_ends h with
  | error code n g ht => rw [ht]; exact .inl rfl
  | commit o n g fits ht => rw [ht]; exact .inl rfl
  | begun ht => rw [ht]; exact .inr (commandKept_refl s)
  | rejected g ht =>
    rw [ht]
    exact .inr ⟨rfl, sameOutputs_refl s, toNat_le_satInc s.attempts, rfl, rfl, rfl, rfl, rfl, rfl⟩

theorem engineStep_idle_or_kept {s t : State} (h : s.engineStep = .next t) : t.phase = .idle ∨ commandKept s t := by
  obtain ⟨-, rfl⟩ | ⟨w, -, -, ⟨-, -, rfl⟩ | ⟨i, -, hx⟩⟩ := engineStep_next h
  · exact .inr (commandKept_refl _)
  · exact .inl rfl
  · exact exec_idle_or_kept hx

theorem step_idle_or_kept {s t : State} {w : Word} (hp : s.phase = .busy w) (h : step s = .next t) :
    t.phase = .idle ∨ commandKept s t := by
  obtain ⟨rest, -, hmove⟩ := step_next h
  obtain rfl | he | ⟨-, rfl⟩ := hmove
  · exact State.hostStep_idle_or_kept (s := { s with turns := rest }) hp
  · exact engineStep_idle_or_kept (s := { s with turns := rest }) he
  · exact .inl rfl

/-- Settles O51: a move from `BUSY` ends the command or keeps it, and the step given does not end it. -/
theorem busyKeepsOldOutputs : Obligations.BusyKeepsOldOutputs := by
  unfold Obligations.BusyKeepsOldOutputs
  intro s t w w' hp h hp'
  obtain hidle | ⟨hphase, hkept⟩ := step_idle_or_kept hp h
  · rw [hp'] at hidle; cases hidle
  · rw [hp, hp'] at hphase
    exact ⟨Phase.busy.inj hphase, hkept⟩

/-! ## What an offset names, read backwards (20_memory.md R61, R64, R65, R67, R70) -/

theorem regionOf_bounds (z : BigName) : regionOf z % 0x100 = 0 ∧ 0x100 ≤ regionOf z ∧ regionOf z ≤ 0x600 := by
  cases z <;> decide

theorem ctlOffset_bounds (c : CtlReg) : ctlOffset c % 4 = 0 ∧ ctlOffset c ≤ 0x020 := by
  cases c <;> decide

theorem ctlOffset_of_index {k : Nat} {c : CtlReg} (h : ctlOfIndex k = some c) : ctlOffset c = 4 * k := by
  unfold ctlOfIndex at h
  split at h <;> cases h <;> rfl

theorem regionOf_of_region {k : Nat} {z : BigName} (h : bigOfRegion k = some z) : regionOf z = 0x100 * k := by
  unfold bigOfRegion at h
  split at h <;> cases h <;> rfl

theorem toNat_of_regAt_ctl {n : Nat} {off : Offset} {c : CtlReg} (h : regAt n off = some (.ctl c)) :
    off.toNat = ctlOffset c := by
  unfold regAt at h
  split at h
  · cases h
  · split at h
    · obtain ⟨c', hc, heq⟩ := Option.map_eq_some_iff.1 h
      cases heq
      have := ctlOffset_of_index hc
      omega
    · split at h
      · obtain ⟨_, -, heq⟩ := Option.map_eq_some_iff.1 h
        cases heq
      · cases h

theorem toNat_of_regAt_limb {n i : Nat} {off : Offset} {z : BigName} (h : regAt n off = some (.limb z i)) :
    off.toNat = regionOf z + 4 * i ∧ i < n ∧ i < 64 := by
  unfold regAt at h
  split at h
  · cases h
  · split at h
    · obtain ⟨_, -, heq⟩ := Option.map_eq_some_iff.1 h
      cases heq
    · split at h
      · obtain ⟨z', hz, heq⟩ := Option.map_eq_some_iff.1 h
        cases heq
        have := regionOf_of_region hz
        omega
      · cases h

/-- An offset names at most the register that stands there. -/
theorem eq_regOffset_of_regAt {n : Nat} {off : Offset} {reg : Reg} (h : regAt n off = some reg) :
    off = regOffset reg := by
  cases reg with
  | ctl c => rw [regOffset, ← toNat_of_regAt_ctl h, BitVec.ofNat_toNat, BitVec.setWidth_eq]
  | limb z i => rw [regOffset, ← (toNat_of_regAt_limb h).1, BitVec.ofNat_toNat, BitVec.setWidth_eq]

/-- Settles O5: `regAt_limb` and `regAt_ctl` say what stands at each offset, `eq_regOffset_of_regAt` that nothing else
does. -/
theorem addressMapIsExact : Obligations.AddressMapIsExact := by
  unfold Obligations.AddressMapIsExact
  refine fun n hn => ⟨fun i hi => ?_, regAt_ctl n .id, regAt_ctl n .hwcfg, regAt_ctl n .ctrl, regAt_ctl n .status,
    regAt_ctl n .cmd, regAt_ctl n .rounds, regAt_ctl n .numbits, regAt_ctl n .limit, regAt_ctl n .attempts,
    fun off reg h => ⟨eq_regOffset_of_regAt h, ?_⟩⟩
  · exact ⟨regAt_limb .a hi hn, regAt_limb .b hi hn, regAt_limb .m hi hn, regAt_limb .r hi hn, regAt_limb .x hi hn,
      regAt_limb .y hi hn⟩
  · rintro z i rfl
    exact (toNat_of_regAt_limb h).2.1

/-! ## Refused accesses (20_memory.md R65 to R72) -/

/-- The two address bits below a word (20_memory.md R67). -/
theorem extractLsb'_ne_zero_iff (off : Offset) : off.extractLsb' 0 2 ≠ 0#2 ↔ off.toNat % 4 ≠ 0 := by
  rw [ne_eq, ← BitVec.toNat_inj]; simp

/-- A misaligned offset, a gap of the map, or a limb that is not implemented names no register. -/
theorem regAt_eq_none {n : Nat} {off : Offset}
    (h : off.extractLsb' 0 2 ≠ 0#2 ∨ (0x024 ≤ off.toNat ∧ off.toNat ≤ 0x0FF) ∨ 0x700 ≤ off.toNat ∨
      (0x100 ≤ off.toNat ∧ n ≤ off.toNat % 0x100 / 4)) : regAt n off = none := by
  rw [extractLsb'_ne_zero_iff] at h
  rw [Option.eq_none_iff_forall_ne_some]
  rintro (c | ⟨z, i⟩) hreg
  · have hoff := toNat_of_regAt_ctl hreg
    have hc := ctlOffset_bounds c
    omega
  · have hoff := toNat_of_regAt_limb hreg
    have hz := regionOf_bounds z
    omega

theorem State.access_read_refused {s : State} {off : Offset} {size : Nat}
    (h : size ≠ 4 ∨ regAt s.cfg.limbs off = none) : s.access (.read off size) = s.busError := by
  rw [State.access, State.hostRead]
  split
  · rfl
  · next hsize => rw [h.resolve_left hsize]

theorem State.access_write_refused {s : State} {off : Offset} {size : Nat} {strobes : BitVec 4} (v : Word)
    (h : (size ≠ 4 ∨ strobes ≠ 0xF#4) ∨ regAt s.cfg.limbs off = none) :
    s.access (.write off size strobes v) = s.busError := by
  rw [State.access, State.hostWrite]
  split
  · rfl
  · next hfull => rw [h.resolve_left hfull]

/-- Settles O12: a partial access is refused for its size or strobes, and the other offsets name no register. -/
theorem badWidthAlignmentOrOffsetIsRefused : Obligations.BadWidthAlignmentOrOffsetIsRefused := by
  unfold Obligations.BadWidthAlignmentOrOffsetIsRefused
  refine fun s off size strobes v => ⟨fun h => ?_, fun h => ?_⟩
  · exact State.access_read_refused (h.imp_right regAt_eq_none)
  · exact State.access_write_refused v ((or_assoc.2 h).imp_right regAt_eq_none)

theorem State.writeIfIdle_of_not_idle {s : State} (hp : s.phase ≠ .idle) (t : State) :
    s.writeIfIdle t = s.busError := by
  obtain h | ⟨hi, -⟩ := s.writeIfIdle_cases t
  · exact h
  · exact absurd hi hp

/-- Whatever a region's offset names, a write there is refused if the writes to the region's limbs are. -/
theorem State.access_write_region {s : State} {off : Offset} {v : Word} (hoff : 0x100 ≤ off.toNat)
    (h : ∀ z i, off.toNat = regionOf z + 4 * i → i < 64 → s.writeLimb z i v = s.busError) :
    s.access (.write off 4 0xF#4 v) = s.busError := by
  cases hreg : regAt s.cfg.limbs off with
  | none => exact State.access_write_refused v (.inr hreg)
  | some reg =>
    cases reg with
    | ctl c =>
      have hc := toNat_of_regAt_ctl hreg
      have hbounds := ctlOffset_bounds c
      omega
    | limb z i =>
      obtain ⟨hz, -, hi⟩ := toNat_of_regAt_limb hreg
      simpa [State.access, State.hostWrite, hreg] using h z i hz hi

/-- The result registers are those of the regions from 0x400 on (20_memory.md R64, R71). -/
theorem hostWritable_iff_regionOf (z : BigName) : hostWritable z = true ↔ regionOf z < 0x400 := by
  cases z <;> decide

theorem State.writeLimb_of_result {s : State} {z : BigName} (hz : hostWritable z = false) (i : Nat) (v : Word) :
    s.writeLimb z i v = s.busError := by
  simp [State.writeLimb, hz]

theorem State.writeLimb_of_not_idle {s : State} (hp : s.phase ≠ .idle) (z : BigName) (i : Nat) (v : Word) :
    s.writeLimb z i v = s.busError := by
  rw [State.writeLimb, State.writeIfIdle_of_not_idle hp, ite_self]

@[simp] theorem State.writeCtrl_answers (s : State) (v : Word) : (s.writeCtrl v).answers = s.answers := by
  obtain h | h := s.writeCtrl_cases v
  · rw [h, State.softReset_answers]
  · rw [h]

@[simp] theorem State.writeCtrl_faults (s : State) (v : Word) : (s.writeCtrl v).faults = s.faults := by
  obtain h | h := s.writeCtrl_cases v
  · rw [h, State.softReset_faults]
  · rw [h]

/-- Settles O13: each register's write rule, with a region's limbs taken together. -/
theorem readOnlyAndBusyWritesAreRefused : Obligations.ReadOnlyAndBusyWritesAreRefused := by
  unfold Obligations.ReadOnlyAndBusyWritesAreRefused
  refine ⟨fun s off v h => ?_, fun s v => ?_⟩
  · change _ = s.busError
    obtain rfl | rfl | rfl | ⟨hlo, hhi⟩ | ⟨hp, rfl | rfl | rfl | rfl | ⟨hlo, hhi⟩⟩ := h
    · exact s.access_write_ctl .id v
    · exact s.access_write_ctl .hwcfg v
    · exact s.access_write_ctl .attempts v
    · refine State.access_write_region (by omega) fun z i hz hi => State.writeLimb_of_result ?_ i v
      have hres : ¬ regionOf z < 0x400 := by have := regionOf_bounds z; omega
      simpa using mt (hostWritable_iff_regionOf z).1 hres
    · exact (s.access_write_ctl .cmd v).trans (State.writeIfIdle_of_not_idle hp _)
    · exact (s.access_write_ctl .rounds v).trans (State.writeIfIdle_of_not_idle hp _)
    · exact (s.access_write_ctl .numbits v).trans (State.writeIfIdle_of_not_idle hp _)
    · exact (s.access_write_ctl .limit v).trans (State.writeIfIdle_of_not_idle hp _)
    · exact State.access_write_region hlo fun z i _ _ => State.writeLimb_of_not_idle hp z i v
  · have hctrl : s.access (.write 0x008#12 4 0xF#4 v) = (s.writeCtrl v).answer .written := s.access_write_ctl .ctrl v
    have hstatus : s.access (.write 0x00C#12 4 0xF#4 v) = (s.writeStatus v).answer .written :=
      s.access_write_ctl .status v
    rw [hctrl, hstatus]
    simp

/-! ## Reads (20_memory.md R69, R74; 10_state.md R29) -/

/-- A read answers, and touches nothing else but the model's records: a fault, and the free word of an UNINIT limb. -/
theorem State.access_read_eq (s : State) (off : Offset) (size : Nat) :
    ∃ (ans : Answer) (f : FaultRecord) (n : Nat), ans ≠ .written ∧
      s.access (.read off size) = { s with faults := f, answers := ans :: s.answers, freeReads := n } := by
  rw [State.access, State.hostRead]
  split
  · exact ⟨.busError, _, _, nofun, rfl⟩
  · split
    · exact ⟨.busError, _, _, nofun, rfl⟩
    · exact ⟨.data _, _, _, nofun, rfl⟩
    · unfold State.readLimb
      split
      · exact ⟨.data _, _, _, nofun, rfl⟩
      · exact ⟨.data _, _, _, nofun, rfl⟩

/-- Settles O14: none of the three fields that a read touches is the block's, the program, the turns or the RNG. -/
theorem readsHaveNoSideEffects : Obligations.ReadsHaveNoSideEffects := by
  unfold Obligations.ReadsHaveNoSideEffects
  intro s off size
  obtain ⟨ans, f, n, hans, h⟩ := s.access_read_eq off size
  rw [h]
  exact ⟨rfl, ⟨ans, rfl, hans⟩, rfl, rfl, rfl⟩

/-! ## Limb writes, and their limbs read back (20_memory.md R61, R75; 10_state.md R29) -/

theorem State.readLimb_of_init {s : State} {z : BigName} {i : Nat} (h : (limbAt (s.big z) i).init = true) :
    s.readLimb z i = s.answer (.data (limbAt (s.big z) i).val) :=
  if_pos h

@[simp] theorem State.access_cfg (s : State) (acc : Access) : (s.access acc).cfg = s.cfg := by
  cases access_ends s acc with
  | ctrl v ht => rw [ht]; obtain h | h := s.writeCtrl_cases v <;> rw [h] <;> rfl
  | issue v _ ht => rw [ht]; unfold State.issue; split <;> rfl
  | limb z i v _ _ ht => rw [ht]; exact State.setBig_cfg s z _
  | refused ht => rw [ht]; rfl
  | read w ht => rw [ht]; rfl
  | uninit z i _ ht => rw [ht]
  | status v ht => rw [ht]; rfl
  | rounds v _ ht => rw [ht]; rfl
  | numbits v _ ht => rw [ht]; rfl
  | limit v _ ht => rw [ht]; rfl

theorem State.Shaped.access {s : State} (h : s.Shaped) (acc : Access) : (s.access acc).Shaped :=
  ⟨by rw [State.access_cfg]; exact h.cfg_ok, fun z => by rw [access_limbs, State.access_cfg]; exact h.limbs z⟩

theorem State.Shaped.access_write_limb_of_idle {s : State} (h : s.Shaped) (hp : s.phase = .idle) {z : BigName}
    (hw : hostWritable z = true) {i : Nat} (hi : i < s.cfg.limbs) (v : Word) :
    s.access (.write (regOffset (.limb z i)) 4 0xF#4 v) = (s.setBig z (setLimb (s.big z) i v)).answer .written := by
  rw [h.access_write_limb z hi, State.writeLimb, if_pos hw, State.writeIfIdle_of_idle hp]

/-- Settles O17: the write is `setLimb` on its register, whose shape lets the read find the marked limb again. -/
theorem limbWriteStoresOneLimb : Obligations.LimbWriteStoresOneLimb := by
  unfold Obligations.LimbWriteStoresOneLimb
  intro s z i v hs hp hw hi
  have hwrite := hs.access_write_limb_of_idle hp hw hi v
  refine ⟨by rw [hwrite, State.answer, State.setBig_answers]; rfl, ?_⟩
  have hlimb : limbAt ((s.access (.write (regOffset (.limb z i)) 4 0xF#4 v)).big z) i = { val := v, init := true } := by
    rw [hwrite, State.answer_big, State.setBig_big_same]
    exact limbAt_of_getElem? (setLimb_getElem? (by rwa [hs.limbs z]) v)
  rw [(hs.access _).access_read_limb z (by rwa [State.access_cfg]), State.readLimb_of_init (by rw [hlimb]), hlimb]
  rfl

end Sys2Proof.Machine

namespace Sys2Proof

/-! ## The decoder on words (30_encoding.md R90, R92, R93, R94, R98) -/

theorem rsvField_append_opField (w : Word) : (rsvField w ++ opField w : BitVec (24 + 8)) = w := by
  rw [rsvField, opField, BitVec.extractLsb'_append_extractLsb'_eq_extractLsb' (show 8 = 0 + 8 from rfl)]
  exact BitVec.extractLsb'_eq_self

/-- The fields of every command's word, from the family `ReservedZero`. -/
theorem encode_fields (i : Instr) : Laws.ReservedZero.Statement i := by
  cases i
  case modexp => exact Laws.ReservedZero.modexp
  case extgcd => exact Laws.ReservedZero.extgcd
  case modinv => exact Laws.ReservedZero.modinv
  case mrtest => exact Laws.ReservedZero.mrtest
  case randprime => exact Laws.ReservedZero.randprime
  case randcoprime => exact Laws.ReservedZero.randcoprime

theorem decodeOp_opField_encode (i : Instr) : decodeOp (opField (encode i)) = .ok i := by
  cases i <;> rfl

theorem opField_encode_of_decodeOp {op : BitVec 8} {i : Instr} (h : decodeOp op = .ok i) : opField (encode i) = op := by
  apply BitVec.eq_of_toNat_eq
  unfold decodeOp at h
  split at h <;> cases h
  all_goals next hop => rw [hop]; rfl

theorem exists_decodeOp_of_range {op : BitVec 8} (h₁ : 1 ≤ op.toNat) (h₆ : op.toNat ≤ 6) :
    ∃ i, decodeOp op = .ok i := by
  have hop : op.toNat = 1 ∨ op.toNat = 2 ∨ op.toNat = 3 ∨ op.toNat = 4 ∨ op.toNat = 5 ∨ op.toNat = 6 := by omega
  obtain h | h | h | h | h | h := hop <;> exact ⟨_, by simp only [decodeOp, h]; rfl⟩

theorem decodeWord_of_rsvField {w : Word} (h : rsvField w = 0#24) : decodeWord w = decodeOp (opField w) :=
  if_neg (not_not.2 h)

theorem decodeWord_of_reserved {w : Word} (h : rsvField w ≠ 0#24) : decodeWord w = .error .reservedBits :=
  if_pos h

theorem decodeWord_encode (i : Instr) : decodeWord (encode i) = .ok i := by
  obtain ⟨-, hrsv, -⟩ := encode_fields i
  rw [decodeWord_of_rsvField hrsv, decodeOp_opField_encode]

/-- Both fields of a word that decodes are those of the command's word. -/
theorem encode_of_decodeWord {w : Word} {i : Instr} (h : decodeWord w = .ok i) : encode i = w := by
  obtain ⟨-, hrsv, -⟩ := encode_fields i
  by_cases hw : rsvField w = 0#24
  · rw [decodeWord_of_rsvField hw] at h
    rw [← rsvField_append_opField (encode i), ← rsvField_append_opField w, hrsv, hw, opField_encode_of_decodeOp h]
  · rw [decodeWord_of_reserved hw] at h; cases h

theorem decodeWord_eq_ok_iff {w : Word} {i : Instr} : decodeWord w = .ok i ↔ w = encode i :=
  ⟨fun h => (encode_of_decodeWord h).symm, fun h => h ▸ decodeWord_encode i⟩

theorem legalWord_iff {w : Word} : legalWord w = true ↔ ∃ i, decodeWord w = .ok i := by
  constructor
  · intro h
    simp only [legalWord, Bool.and_eq_true, beq_iff_eq, decide_eq_true_eq] at h
    obtain ⟨⟨hrsv, h₁⟩, h₆⟩ := h
    rw [decodeWord_of_rsvField hrsv]
    exact exists_decodeOp_of_range h₁ h₆
  · rintro ⟨i, hi⟩
    obtain ⟨-, -, -, -, hlegal⟩ := encode_fields i
    rwa [← encode_of_decodeWord hi]

/-- Settles O2: the words on the right are those of `encode`. -/
theorem fullWordSelectsTheCommand : Obligations.FullWordSelectsTheCommand := by
  unfold Obligations.FullWordSelectsTheCommand
  exact fun _ => ⟨decodeWord_eq_ok_iff, decodeWord_eq_ok_iff, decodeWord_eq_ok_iff, decodeWord_eq_ok_iff,
    decodeWord_eq_ok_iff, decodeWord_eq_ok_iff⟩

/-! ## The decoder on bytes and table words (20_memory.md R62, 30_encoding.md R91) -/

theorem wordOfBytes_laneOf (w : Word) : wordOfBytes (laneOf w 0) (laneOf w 1) (laneOf w 2) (laneOf w 3) = w := by
  simp only [wordOfBytes, laneOf]
  rw [BitVec.extractLsb'_append_extractLsb'_eq_extractLsb' (show 8 * 3 = 8 * 2 + 8 from rfl),
    BitVec.extractLsb'_append_extractLsb'_eq_extractLsb' (show 8 * 2 = 8 * 1 + 8 from rfl),
    BitVec.extractLsb'_append_extractLsb'_eq_extractLsb' (show 8 * 1 = 8 * 0 + 8 from rfl)]
  exact BitVec.extractLsb'_eq_self

theorem decode_bytesOfWord (w : Word) (rest : List Byte) :
    decode (bytesOfWord w ++ rest) = (decodeWord w).map (·, rest) := by
  simp only [bytesOfWord, List.cons_append, List.nil_append, decode, wordOfBytes_laneOf]

theorem decode_encodeBytes (i : Instr) (rest : List Byte) : decode (encodeBytes i ++ rest) = .ok (i, rest) := by
  rw [encodeBytes, decode_bytesOfWord, decodeWord_encode]; rfl

theorem decodeTableWord_iff {w : Word} {i : Instr} : decodeTableWord 32 w.toNat = some i ↔ decodeWord w = .ok i := by
  rw [decodeTableWord, Machine.tableWord_toNat, ← List.append_nil (bytesOfWord w), decode_bytesOfWord]
  cases decodeWord w <;> simp [Except.map]

/-- Settles O3: a word decodes to the command whose word it is, and its bytes, lowest first, make it up again. -/
theorem decodeEncodeAgree : Obligations.DecodeEncodeAgree := by
  unfold Obligations.DecodeEncodeAgree
  exact fun i w rest _ => ⟨decodeWord_encode i, encode_of_decodeWord, decode_encodeBytes i rest,
    decode_bytesOfWord w rest, decodeTableWord_iff, legalWord_iff⟩

/-- Settles O1: four match words, one of them with a byte after it, and a word with bit 8 set. -/
theorem someCommandWordsDecode : Obligations.SomeCommandWordsDecode := by
  unfold Obligations.SomeCommandWordsDecode
  exact ⟨decodeWord_encode .modexp, decodeWord_encode .modinv, decode_encodeBytes .mrtest [],
    decode_encodeBytes .randcoprime [0xFF#8], decodeWord_of_reserved (by decide)⟩

end Sys2Proof

namespace Sys2Proof.Machine

open Sys2Proof

/-! ## Commands and the operand registers they do not read (30_encoding.md R97) -/

/-- What an outcome's next state becomes under `f`; none of the three outcomes turns into another. -/
def mapNext (f : State → State) : Host.Outcome State Fault Refusal → Host.Outcome State Fault Refusal
  | .next t => .next (f t)
  | .fault r => .fault r
  | .refused q => .refused q

@[simp] theorem mapNext_next (f : State → State) (t : State) : mapNext f (.next t) = .next (f t) := rfl

theorem mapNext_ite (f : State → State) (p : Prop) [Decidable p] (o₁ o₂ : Host.Outcome State Fault Refusal) :
    mapNext f (if p then o₁ else o₂) = if p then mapNext f o₁ else mapNext f o₂ := apply_ite _ _ _ _

section
variable (s : State) {z : BigName} (v : BigReg)

theorem State.setBig_value_other {z' : BigName} (h : z' ≠ z) : (s.setBig z v).value z' = s.value z' := by
  rw [State.value, State.setBig_big_other s z z' v h, State.value]

@[simp] theorem State.setBig_roundsOperand : (s.setBig z v).roundsOperand = s.roundsOperand := by
  rw [State.roundsOperand, State.setBig_rounds, State.roundsOperand]

@[simp] theorem State.setBig_numBitsOperand : (s.setBig z v).numBitsOperand = s.numBitsOperand := by
  rw [State.numBitsOperand, State.setBig_numbits, State.numBitsOperand]

@[simp] theorem State.setBig_atCeiling : (s.setBig z v).atCeiling = s.atCeiling := by
  rw [State.atCeiling, State.setBig_limit, State.setBig_attempts, State.atCeiling]

theorem State.setBig_withRng (g : Rng) : { s.setBig z v with rng := g } = ({ s with rng := g } : State).setBig z v := by
  cases z <;> rfl

theorem State.setBig_withDraws (n : Word) (g : Rng) :
    { s.setBig z v with attempts := n, rng := g } = ({ s with attempts := n, rng := g } : State).setBig z v := by
  cases z <;> rfl

theorem State.setBig_checkFit (fits : Bool) : (s.setBig z v).checkFit fits = (s.checkFit fits).setBig z v := by
  cases z <;> rfl

theorem State.setBig_completeErr (code : ErrCode) :
    (s.setBig z v).completeErr code = (s.completeErr code).setBig z v := by
  cases z <;> rfl

theorem State.setBig_beginSearch : (s.setBig z v).beginSearch = s.beginSearch.setBig z v := by
  cases z <;> rfl

/-- A commit writes R, X and Y only. -/
theorem State.setBig_completeOk (hz : hostWritable z = true) (o : Outputs) :
    (s.setBig z v).completeOk o = (s.completeOk o).setBig z v := by
  cases z
  case a => rfl
  case b => rfl
  case m => rfl
  all_goals cases hz

theorem State.setBig_endAttempt (hz : hostWritable z = true) (c : Nat) (verdict : Verdict) :
    (s.setBig z v).endAttempt c verdict = (s.endAttempt c verdict).setBig z v := by
  cases verdict
  case accept => exact s.setBig_completeOk v hz _
  case reject => rfl
  case drawFailed => exact s.setBig_completeErr v _

/-- An attempt looks at no big-integer register: its range and its test are its arguments. -/
theorem State.setBig_attempt (hz : hostWritable z = true) (lo hi : Nat) (accept : Nat → Rng → Verdict × Rng) :
    (s.setBig z v).attempt lo hi accept = (s.attempt lo hi accept).setBig z v := by
  unfold State.attempt
  rw [State.setBig_atCeiling, State.setBig_rng]
  split
  · exact s.setBig_completeErr v _
  · rcases s.rng.draw lo hi with ⟨ans, g⟩
    cases ans with
    | fail => simp only [State.setBig_attempts, State.setBig_withDraws, State.setBig_completeErr]
    | ok c => simp only [State.setBig_attempts, State.setBig_withDraws, State.setBig_endAttempt _ v hz]

end

section
variable {s : State} {z : BigName}

theorem execExtgcd_setBig (hz : hostWritable z = true) (ha : .a ≠ z) (hb : .b ≠ z) (v : BigReg) :
    execExtgcd (s.setBig z v) = mapNext (·.setBig z v) (execExtgcd s) := by
  simp only [execExtgcd, s.setBig_value_other v ha, s.setBig_value_other v hb, State.setBig_cfg, State.setBig_checkFit,
    State.setBig_completeOk _ v hz, mapNext_next]

theorem execModinv_setBig (hz : hostWritable z = true) (ha : .a ≠ z) (hm : .m ≠ z) (v : BigReg) :
    execModinv (s.setBig z v) = mapNext (·.setBig z v) (execModinv s) := by
  simp only [execModinv, s.setBig_value_other v ha, s.setBig_value_other v hm, mapNext_ite, mapNext_next,
    State.setBig_completeErr]
  cases modinv (s.value .a) (s.value .m)
  case none => rfl
  case some => simp only [State.setBig_checkFit, State.setBig_completeOk _ v hz, mapNext_next]

theorem execMrtest_setBig (hz : hostWritable z = true) (ha : .a ≠ z) (v : BigReg) :
    execMrtest (s.setBig z v) = mapNext (·.setBig z v) (execMrtest s) := by
  simp only [execMrtest, s.setBig_value_other v ha, State.setBig_roundsOperand, State.setBig_rng, State.setBig_withRng]
  rcases isProbablePrime (s.value .a) s.roundsOperand s.rng with ⟨verdict, g⟩
  cases verdict
  case drawFailed => simp only [State.setBig_completeErr, mapNext_next]
  all_goals simp only [State.setBig_completeOk _ v hz, mapNext_next]

theorem execRandprime_setBig (hz : hostWritable z = true) (v : BigReg) :
    execRandprime (s.setBig z v) = mapNext (·.setBig z v) (execRandprime s) := by
  by_cases hs : s.engine = .searching
  · rw [execRandprime_searching hs, execRandprime_searching (by rwa [State.setBig_engine]), State.setBig_numBitsOperand,
      State.setBig_roundsOperand, State.setBig_attempt s v hz, mapNext_next]
  · rw [execRandprime_validates hs, execRandprime_validates (by rwa [State.setBig_engine]), State.setBig_numBitsOperand,
      State.setBig_cfg, State.setBig_completeErr, State.setBig_beginSearch, mapNext_ite, mapNext_next, mapNext_next]

theorem execRandcoprime_setBig (hz : hostWritable z = true) (hm : .m ≠ z) (v : BigReg) :
    execRandcoprime (s.setBig z v) = mapNext (·.setBig z v) (execRandcoprime s) := by
  by_cases hs : s.engine = .searching
  · rw [execRandcoprime_searching hs, execRandcoprime_searching (by rwa [State.setBig_engine]),
      s.setBig_value_other v hm, State.setBig_attempt s v hz, mapNext_next]
  · rw [execRandcoprime_validates hs, execRandcoprime_validates (by rwa [State.setBig_engine]),
      s.setBig_value_other v hm, State.setBig_completeErr, State.setBig_beginSearch, mapNext_ite, mapNext_next,
      mapNext_next]

end

/-- The rule of each command for an operand register outside its row; MODEXP's row lists all three. -/
theorem exec_setBig {i : Instr} (s : State) {z : BigName} (hz : hostWritable z = true) (hr : z ∉ readsOf i)
    (v : BigReg) :
    exec i (s.setBig z v) = mapNext (·.setBig z v) (exec i s) := by
  have hne {z' : BigName} (h : z' ∈ readsOf i) : z' ≠ z := fun he => hr (he ▸ h)
  cases i with
  | modexp => cases z <;> simp [readsOf, hostWritable] at hr hz
  | extgcd => exact execExtgcd_setBig hz (hne (by decide)) (hne (by decide)) v
  | modinv => exact execModinv_setBig hz (hne (by decide)) (hne (by decide)) v
  | mrtest => exact execMrtest_setBig hz (hne (by decide)) v
  | randprime => exact execRandprime_setBig hz v
  | randcoprime => exact execRandcoprime_setBig hz (hne (by decide)) v

/-- Settles O48: the step's next state, with the register replaced, is the step of the state with it replaced. -/
theorem unlistedOperandsDoNotSteerCommands : Obligations.UnlistedOperandsDoNotSteerCommands := by
  unfold Obligations.UnlistedOperandsDoNotSteerCommands
  intro i s z v hz hr
  obtain ⟨t, ht⟩ := exec_next i s
  exact ⟨t, ht, by rw [exec_setBig s hz hr, ht, mapNext_next]⟩

end Sys2Proof.Machine

namespace Sys2Proof.Machine

open Sys2Proof

/-! ## The moves of a host program (30_encoding.md R99, R100) -/

/-- A poll of `WAIT` is one read of STATUS; the phase at that read says whether the loop goes on. -/
theorem State.hostStep_wait {s : State} {rest : List HostOp} (h : s.program = .wait :: rest) :
    s.hostStep = { s with
      program := if s.phase.isBusy then .wait :: rest else rest
      answers := .data (s.ctlWord .status) :: s.answers } := by
  simp only [State.hostStep, h, State.access_read_ctl]
  rfl

/-- Settles O21: bit 0 of the STATUS word is BUSY. -/
theorem waitPollsUntilNotBusy : Obligations.WaitPollsUntilNotBusy := by
  unfold Obligations.WaitPollsUntilNotBusy
  intro s rest h
  obtain ⟨hbusy, -⟩ := Status.word_flags s.status s.phase.isBusy
  refine ⟨s.ctlWord .status, ?_, ?_, rfl⟩
  · rw [State.hostStep_wait h, State.ctlWord, hbusy]
  · rw [State.ctlWord, hbusy]
    cases s.phase <;> simp [Phase.isBusy]

/-- The host's side replaced: its answers, its program and the turns. -/
def State.withHost (s : State) (ans : List Answer) (p : List HostOp) (turns : List Turn) : State :=
  { s with answers := ans, program := p, turns := turns }

section
variable {s : State} (ans : List Answer) (p : List HostOp) (turns : List Turn)

theorem State.withHost_self (s : State) : s.withHost s.answers s.program s.turns = s := rfl

theorem State.withHost_big (z : BigName) : (s.withHost ans p turns).big z = s.big z := by
  cases z <;> rfl

theorem State.withHost_setBig (z : BigName) (v : BigReg) :
    (s.withHost ans p turns).setBig z v = (s.setBig z v).withHost ans p turns := by
  cases z <;> rfl

theorem State.Shaped.withHost (h : s.Shaped) : (s.withHost ans p turns).Shaped :=
  ⟨h.cfg_ok, fun z => by rw [State.withHost_big]; exact h.limbs z⟩

/-- A host's turn at an access. -/
theorem runSteps_access (n : Nat) (acc : Access) :
    runSteps (n + 1) (s.withHost ans (.access acc :: p) (.host :: turns)) =
      runSteps n ((s.withHost ans p turns).access acc) := rfl

end

theorem State.setBig_self (s : State) (z : BigName) : s.setBig z (s.big z) = s := by
  cases z <;> rfl

theorem State.setBig_setBig (s : State) (z : BigName) (u v : BigReg) : (s.setBig z u).setBig z v = s.setBig z v := by
  cases z <;> rfl

/-! ### LDBIG: limbs written in order (20_memory.md R61) -/

/-- A register after writes of the words `f i` to its limbs `i` of `l`, in order. -/
def setLimbs (f : Nat → Word) (l : List Nat) (z : BigReg) : BigReg := l.foldl (fun z i => setLimb z i (f i)) z

theorem State.Shaped.setBig_setLimb {s : State} (h : s.Shaped) (z : BigName) (i : Nat) (v : Word) :
    (s.setBig z (setLimb (s.big z) i v)).Shaped := by
  refine ⟨by rw [State.setBig_cfg]; exact h.cfg_ok, fun z' => ?_⟩
  by_cases hz : z' = z
  · subst hz; rw [State.setBig_big_same, State.setBig_cfg, setLimb_length, h.limbs]
  · rw [State.setBig_big_other s z z' _ hz, State.setBig_cfg, h.limbs]

theorem State.Shaped.runSteps_writeLimbs {z : BigName} (hw : hostWritable z = true) (f : Nat → Word)
    (rest : List HostOp) (l : List Nat) {s : State} (hs : s.Shaped) (hp : s.phase = .idle)
    (hl : ∀ i ∈ l, i < s.cfg.limbs) (ans : List Answer) :
    runSteps l.length (s.withHost ans ((l.map fun i => writeReg (.limb z i) (f i)) ++ rest)
        (List.replicate l.length .host)) =
      .next ((s.setBig z (setLimbs f l (s.big z))).withHost (List.replicate l.length .written ++ ans) rest []) := by
  induction l generalizing s ans with
  | nil => rw [setLimbs, List.foldl_nil, State.setBig_self]; rfl
  | cons i l ih =>
    have hmove (p : List HostOp) (turns : List Turn) :
        (s.withHost ans p turns).access (.write (regOffset (.limb z i)) 4 0xF#4 (f i)) =
          (s.setBig z (setLimb (s.big z) i (f i))).withHost (.written :: ans) p turns := by
      rw [(hs.withHost ans p turns).access_write_limb_of_idle hp hw (hl i List.mem_cons_self), State.withHost_big,
        State.withHost_setBig]
      rfl
    have hrest : ∀ j ∈ l, j < (s.setBig z (setLimb (s.big z) i (f i))).cfg.limbs := fun j hj => by
      rw [State.setBig_cfg]; exact hl j (List.mem_cons_of_mem i hj)
    rw [List.length_cons, List.map_cons, List.cons_append, writeReg, List.replicate_succ, runSteps_access, hmove,
      ih (hs.setBig_setLimb z i (f i)) (by rwa [State.setBig_phase]) hrest, State.setBig_setBig, State.setBig_big_same,
      List.replicate_succ', List.append_assoc]
    rfl

theorem BigReg.ofNat_succ (n v : Nat) :
    BigReg.ofNat (n + 1) v = BigReg.ofNat n v ++ [{ val := limbOf v n, init := true }] := by
  induction n generalizing v with
  | zero => simp [BigReg.ofNat, limbOf]
  | succ n ih =>
    have hlimb : limbOf (v / 2 ^ 32) n = limbOf v (n + 1) := by
      rw [limbOf, limbOf, Nat.div_div_eq_div_mul, ← Nat.pow_add, Nat.mul_succ, Nat.add_comm]
    rw [BigReg.ofNat, ih, hlimb]; rfl

/-- The first `n` limbs are the number's once they are written; the limbs above keep their old words. -/
theorem setLimbs_range (v : Nat) {n : Nat} {z : BigReg} (hn : n ≤ z.length) :
    setLimbs (limbOf v) (List.range n) z = BigReg.ofNat n v ++ z.drop n := by
  induction n with
  | zero => rfl
  | succ n ih =>
    have hold : z.drop n = z[n] :: z.drop (n + 1) := List.drop_eq_getElem_cons hn
    have hlast : setLimbs (limbOf v) (List.range (n + 1)) z =
        setLimb (setLimbs (limbOf v) (List.range n) z) n (limbOf v n) := by
      rw [setLimbs, List.range_succ, List.foldl_append]; rfl
    rw [hlast, ih (Nat.le_of_succ_le hn), hold, setLimb, List.set_append_right _ _ (by simp), BigReg.ofNat_length,
      Nat.sub_self, List.set_cons_zero, BigReg.ofNat_succ, List.append_assoc, List.singleton_append]

theorem setLimbs_all (v : Nat) (z : BigReg) :
    setLimbs (limbOf v) (List.range z.length) z = BigReg.ofNat z.length v := by
  rw [setLimbs_range v (Nat.le_refl _), List.drop_length, List.append_nil]

/-- Settles O22: the `L` writes put the number's limbs in place of the register's. -/
theorem loadBigStoresTheNumber : Obligations.LoadBigStoresTheNumber := by
  unfold Obligations.LoadBigStoresTheNumber
  intro s z v rest hs hidle hline hp ht
  simp only [lineWellFormed, Bool.and_eq_true, decide_eq_true_eq] at hline
  obtain ⟨hw, hv⟩ := hline
  have hrun := hs.runSteps_writeLimbs hw (limbOf v) rest (List.range s.cfg.limbs) hidle
    (fun i hi => List.mem_range.1 hi) s.answers
  have hload : setLimbs (limbOf v) (List.range s.cfg.limbs) (s.big z) = BigReg.ofNat s.cfg.limbs v := by
    rw [← hs.limbs z]; exact setLimbs_all v _
  rw [expandLine] at hp
  rw [List.length_range, ← hp, ← ht, State.withHost_self, hload] at hrun
  have hbig (ans : List Answer) : (((s.setBig z (BigReg.ofNat s.cfg.limbs v)).withHost ans rest []).big z) =
      BigReg.ofNat s.cfg.limbs v := by
    rw [State.withHost_big, State.setBig_big_same]
  refine ⟨_, hrun, ?_, ?_, rfl, ?_, ?_⟩
  · rw [State.value, hbig, hs.val_ofNat hv]
  · rw [hbig, BigReg.ofNat_ready]
  · rw [hbig]; rfl
  · exact s.setBig_faults z _

/-! ### RDBIG: limbs read in order -/

theorem State.Shaped.runSteps_readLimbs {s : State} (hs : s.Shaped) {z : BigName} (rest : List HostOp) (l : List Nat)
    (hl : ∀ i ∈ l, i < s.cfg.limbs ∧ (limbAt (s.big z) i).init = true) (ans : List Answer) :
    runSteps l.length (s.withHost ans ((l.map fun i => readReg (.limb z i)) ++ rest)
        (List.replicate l.length .host)) =
      .next (s.withHost ((l.map fun i => .data (limbAt (s.big z) i).val).reverse ++ ans) rest []) := by
  induction l generalizing ans with
  | nil => rfl
  | cons i l ih =>
    obtain ⟨hi, hinit⟩ := hl i List.mem_cons_self
    have hmove (p : List HostOp) (turns : List Turn) :
        (s.withHost ans p turns).access (.read (regOffset (.limb z i)) 4) =
          s.withHost (.data (limbAt (s.big z) i).val :: ans) p turns := by
      rw [(hs.withHost ans p turns).access_read_limb z hi, State.readLimb_of_init (by rwa [State.withHost_big]),
        State.withHost_big]
      rfl
    rw [List.length_cons, List.map_cons, List.cons_append, readReg, List.replicate_succ, runSteps_access, hmove,
      ih fun j hj => hl j (List.mem_cons_of_mem i hj)]
    simp

theorem limbAt_of_lt {z : BigReg} {i : Nat} (hi : i < z.length) : limbAt z i = z[i] :=
  limbAt_of_getElem? (List.getElem?_eq_getElem hi)

theorem BigReg.limbAt_init {z : BigReg} (h : z.ready = true) {i : Nat} (hi : i < z.length) :
    (limbAt z i).init = true := by
  rw [limbAt_of_lt hi]; exact List.all_eq_true.1 h _ (List.getElem_mem hi)

theorem map_limbAt_range (z : BigReg) : (List.range z.length).map (limbAt z) = z :=
  List.ext_getElem (by simp) fun i _ hi => by simp [limbAt_of_lt hi]

theorem bigOfData_map_val (z : BigReg) : bigOfData (z.map (·.val)) = z.val := by
  induction z with
  | nil => rfl
  | cons l rest ih => rw [List.map_cons, bigOfData, ih, BigReg.val]

theorem lastData_of_data {s : State} (ws : List Word) {ans : List Answer}
    (h : s.answers = (ws.map .data).reverse ++ ans) :
    lastData s ws.length = some ws := by
  have hlast : s.answers.take ws.length = (ws.map .data).reverse := by
    rw [h, List.take_left' (by simp)]
  rw [lastData, hlast, List.reverse_reverse, List.mapM_map]
  exact (List.mapM_pure (f := id)).trans (congrArg some (List.map_id ws))

/-- Settles O23: the answers, oldest first, are the words of the register's limbs. -/
theorem readBigReturnsTheNumber : Obligations.ReadBigReturnsTheNumber := by
  unfold Obligations.ReadBigReturnsTheNumber
  intro s z name rest hs hready hp ht
  have hrun := hs.runSteps_readLimbs (z := z) rest (List.range s.cfg.limbs)
    (fun i hi => ⟨List.mem_range.1 hi, BigReg.limbAt_init hready (by rw [hs.limbs z]; exact List.mem_range.1 hi)⟩)
    s.answers
  have hdata : ((List.range s.cfg.limbs).map fun i => Answer.data (limbAt (s.big z) i).val) =
      ((s.big z).map (·.val)).map .data := by
    conv_rhs => rw [← map_limbAt_range (s.big z), hs.limbs z]
    simp
  rw [expandLine] at hp
  rw [List.length_range, ← hp, ← ht, State.withHost_self, hdata] at hrun
  refine ⟨_, (s.big z).map (·.val), hrun, ?_, bigOfData_map_val _, rfl, rfl, rfl⟩
  have hlen : ((s.big z).map (·.val)).length = s.cfg.limbs := by rw [List.length_map, hs.limbs z]
  rw [← hlen]
  exact lastData_of_data _ rfl

end Sys2Proof.Machine

namespace Sys2Proof.Machine

open Sys2Proof

/-! ## Writes to CTRL, STATUS and CMD (40_command_cycle.md R111, R119, R120) -/

theorem State.writeCtrl_of_srst {v : Word} (s : State) (hv : bitOf v 1 = true) : s.writeCtrl v = s.softReset :=
  if_pos hv

theorem State.writeCtrl_of_not_srst {v : Word} (s : State) (hv : bitOf v 1 = false) :
    s.writeCtrl v = { s with irqEn := bitOf v 0 } :=
  if_neg (by simp [hv])

/-- Settles O8: bit 1 chooses between the soft reset and the new value of IRQ_EN. -/
theorem ctrlWriteSoftResetsOrSetsIrqEnable : Obligations.CtrlWriteSoftResetsOrSetsIrqEnable := by
  unfold Obligations.CtrlWriteSoftResetsOrSetsIrqEnable
  intro s v
  have hwrite : s.access (.write 0x008#12 4 0xF#4 v) = (s.writeCtrl v).answer .written := s.access_write_ctl .ctrl v
  refine ⟨fun hv => ?_, fun hv => ?_⟩
  · rw [hwrite, s.writeCtrl_of_srst hv]; rfl
  · rw [hwrite, s.writeCtrl_of_not_srst hv]; rfl

theorem Status.atWrite_eq_done (st : Status) (v : Word) :
    st.atWrite v = { st with done := if bitOf v 1 then false else st.done } := by
  unfold Status.atWrite; split <;> rfl

/-- A STATUS write finds nothing to clear where DONE is 0. -/
theorem State.writeStatus_of_not_done {s : State} (hd : s.status.done = false) (v : Word) : s.writeStatus v = s := by
  rw [State.writeStatus, Status.atWrite_eq_done, hd, ite_self, ← hd]

theorem State.Inv.done_eq_false {s : State} (h : s.Inv) (hbusy : s.phase ≠ .idle) : s.status.done = false := by
  cases hp : s.phase with
  | idle => exact absurd hp hbusy
  | busy w =>
    obtain ⟨-, hdone, -⟩ := h.busyFlags w hp
    exact hdone

/-- Settles O10: DONE becomes 0 or stays, and while `BUSY` the invariant says that it is 0 already. -/
theorem statusWriteClearsOnlyDone : Obligations.StatusWriteClearsOnlyDone := by
  unfold Obligations.StatusWriteClearsOnlyDone
  intro s v
  have hwrite : s.access (.write 0x00C#12 4 0xF#4 v) = (s.writeStatus v).answer .written :=
    s.access_write_ctl .status v
  refine ⟨?_, fun hinv hbusy => ?_⟩
  · rw [hwrite, State.writeStatus, Status.atWrite_eq_done]; rfl
  · rw [hwrite, State.writeStatus_of_not_done (hinv.done_eq_false hbusy)]; rfl

theorem State.startCommand_attempts (s : State) (w : Word) :
    (s.startCommand w).attempts =
      if decodeWord w = .ok .randprime ∨ decodeWord w = .ok .randcoprime then 0#32 else s.attempts := by
  unfold State.startCommand
  cases hd : decodeWord w with
  | error e => simp
  | ok i => cases i <;> simp [isSearch]

/-- The check of the marks, limb by limb (10_state.md R29). -/
theorem State.uninitIssue_iff {s : State} {w : Word} :
    s.uninitIssue w = true ↔ ∃ i, decodeWord w = .ok i ∧ ∃ z ∈ readsOf i, ∃ l ∈ s.big z, l.init = false := by
  unfold State.uninitIssue
  cases hd : decodeWord w with
  | error e => simp
  | ok i => simp [State.uninitOperand, BigReg.ready]

/-- An issue is the start of the command, with the mark check's verdict added to the fault record. -/
theorem State.issue_eq (s : State) (w : Word) :
    ∃ e, s.issue w =
      { s.startCommand w with
        engine := e, faults := { s.faults with uninitRead := s.faults.uninitRead || s.uninitIssue w } } := by
  unfold State.issue
  cases s.uninitIssue w with
  | true => exact ⟨.held, by rw [if_pos rfl, Bool.or_true]⟩
  | false => exact ⟨.issued, by rw [if_neg Bool.false_ne_true, Bool.or_false]; rfl⟩

/-- Settles O18: the accepted write is the issue, and `u` is its check of the marks. -/
theorem issueStartsTheCommand : Obligations.IssueStartsTheCommand := by
  unfold Obligations.IssueStartsTheCommand
  intro s w hp
  have hwrite : s.access (.write 0x010#12 4 0xF#4 w) = (s.issue w).answer .written :=
    State.access_write_ctl_of_idle (c := .cmd) hp rfl
  obtain ⟨e, hissue⟩ := s.issue_eq w
  refine ⟨s.uninitIssue w, e, State.uninitIssue_iff, ?_⟩
  rw [hwrite, hissue, ← s.startCommand_attempts w]
  rfl

/-! ## A rejected candidate (44_random_search.md R183, R190) -/

/-- The first component of 42_gcd_inverse.md R140 is the greatest common divisor. -/
theorem extgcd_fst (a b : Nat) : (extgcd a b).1 = Nat.gcd a b := by
  induction b using Nat.strong_induction_on generalizing a with
  | _ b ih =>
    by_cases hb : b = 0
    · rw [hb, extgcd_zero_right, Nat.gcd_zero_right]
    · rw [extgcd_of_ne_zero a hb, ih _ (Nat.mod_lt _ (Nat.pos_of_ne_zero hb)), Nat.gcd_comm b,
        ← Nat.gcd_rec, Nat.gcd_comm]

theorem acceptCoprime_of_reject {phi c : Nat} (h : c < 2 ∨ Nat.gcd c phi ≠ 1) (g : Rng) :
    acceptCoprime phi c g = (.reject, g) := by
  refine if_neg ?_
  rw [extgcd_fst]
  rintro ⟨h2, -, hgcd⟩
  omega

/-- An attempt below its ceiling whose draw answers and whose candidate is rejected. -/
theorem State.attempt_of_reject {s : State} {lo hi c : Nat} {g : Rng} {accept : Nat → Rng → Verdict × Rng}
    (hc : s.atCeiling = false) (hd : s.rng.draw lo hi = (.ok c, g)) (hr : (accept c g).1 = .reject) :
    s.attempt lo hi accept = { s with attempts := satInc s.attempts, rng := (accept c g).2 } := by
  simp only [State.attempt, hc, hd, hr, Bool.false_eq_true, if_false]
  rfl

theorem exec_randprime_of_reject {s : State} {c : Nat} {g : Rng} (hs : s.engine = .searching)
    (hc : s.atCeiling = false)
    (hd : s.rng.draw (2 ^ (s.numBitsOperand - 1)) (2 ^ s.numBitsOperand - 1) = (.ok c, g))
    (hr : (isProbablePrime c s.roundsOperand g).1 = .reject) :
    exec .randprime s =
      .next { s with attempts := satInc s.attempts, rng := (isProbablePrime c s.roundsOperand g).2 } := by
  rw [exec, execRandprime_searching hs, State.attempt_of_reject hc hd hr]

/-- Settles O42: the rejected candidate leaves its count, and what its test took from the RNG. -/
theorem rejectedCandidateStaysBusy : Obligations.RejectedCandidateStaysBusy := by
  unfold Obligations.RejectedCandidateStaysBusy
  intro s c g hs hc
  refine ⟨fun hd hr => exec_randprime_of_reject hs hc hd hr, fun hd hr => ?_⟩
  have htest := acceptCoprime_of_reject hr g
  rw [exec, execRandcoprime_searching hs, State.attempt_of_reject hc hd (by rw [htest]), htest]
  rfl

/-! ## The frame of a command step (40_command_cycle.md R118; 30_encoding.md R97) -/

/-- What every command step keeps, and whose step may count an attempt or draw. -/
theorem exec_frame {i : Instr} {s t : State} (h : exec i s = .next t) :
    sameInputs s t ∧ sameHost s t ∧ t.faults.busFault = s.faults.busFault ∧
      t.faults.uninitRead = s.faults.uninitRead ∧
      (t.attempts = s.attempts ∨ isSearch i = true ∧ t.attempts = satInc s.attempts) ∧
      (i = .modexp ∨ i = .extgcd ∨ i = .modinv → t.rng = s.rng) := by
  have hin : sameInputs s s := ⟨rfl, rfl, rfl, rfl, rfl, rfl, rfl, rfl, rfl⟩
  have hhost : sameHost s s := ⟨rfl, rfl, rfl, rfl⟩
  cases exec_ends h with
  | error code n g ht _ hn hg => rw [ht]; exact ⟨hin, hhost, rfl, rfl, hn, hg⟩
  | commit o n g fits ht _ _ hn hg => rw [ht]; exact ⟨hin, hhost, rfl, rfl, hn, hg⟩
  | begun ht => rw [ht]; exact ⟨hin, hhost, rfl, rfl, .inl rfl, fun _ => rfl⟩
  | rejected g ht hi =>
    rw [ht]
    refine ⟨hin, hhost, rfl, rfl, .inr ⟨hi, rfl⟩, ?_⟩
    rintro (rfl | rfl | rfl) <;> cases hi

theorem exec_unlistedOutputsKept {i : Instr} {s t : State} (h : exec i s = .next t) : unlistedOutputsKept i s t := by
  obtain ⟨hr, hx, hy, hprime, hxneg, hyneg⟩ | ⟨-, hkept⟩ := exec_outputs h
  · exact ⟨fun _ => hr, fun _ => ⟨hx, hy, hxneg, hyneg⟩, fun _ => hprime⟩
  · exact hkept

theorem exec_attempts_of_not_search {i : Instr} {s t : State} (h : exec i s = .next t) (hi : isSearch i = false) :
    t.attempts = s.attempts := by
  obtain ⟨-, -, -, -, hkept | ⟨hsearch, -⟩, -⟩ := exec_frame h
  · exact hkept
  · rw [hi] at hsearch; cases hsearch

/-- Settles O44: the common frame, and the outputs that the command's row does not list. -/
theorem commandsChangeOnlyTheirOutputs : Obligations.CommandsChangeOnlyTheirOutputs := by
  unfold Obligations.CommandsChangeOnlyTheirOutputs
  intro i s t h
  obtain ⟨hin, hhost, hbus, huninit, -, hrng⟩ := exec_frame h
  obtain ⟨hr, hxy, hprime⟩ := exec_unlistedOutputsKept h
  exact ⟨hin, hhost, fun hs => exec_faults hs h, hbus, huninit, hr, hxy, hprime, exec_attempts_of_not_search h, hrng⟩

/-- The big-integer registers that a command's row does not list as outputs. -/
theorem exec_big {i : Instr} {s t : State} (h : exec i s = .next t) {z : BigName} (hr : z = .r → i = .mrtest)
    (hxy : z = .x ∨ z = .y → i ≠ .extgcd) : t.big z = s.big z := by
  obtain ⟨⟨-, ha, hb, hm, -⟩, -⟩ := exec_frame h
  obtain ⟨hkeepR, hkeepXY, -⟩ := exec_unlistedOutputsKept h
  cases z with
  | a => exact ha
  | b => exact hb
  | m => exact hm
  | r => exact hkeepR (hr rfl)
  | x => obtain ⟨hx, -⟩ := hkeepXY (hxy (.inl rfl)); exact hx
  | y => obtain ⟨-, hy, -⟩ := hkeepXY (hxy (.inr rfl)); exact hy

/-- The control registers but STATUS, and ATTEMPTS under a search. -/
theorem exec_ctlWord {i : Instr} {s t : State} (h : exec i s = .next t) {c : CtlReg} (hc : c ≠ .status)
    (ha : isSearch i = true → c ≠ .attempts) : t.ctlWord c = s.ctlWord c := by
  obtain ⟨⟨hcfg, -, -, -, hrounds, hnumbits, hlimit, hirq, hcmd⟩, -⟩ := exec_frame h
  cases c with
  | id => rfl
  | hwcfg => simp only [State.ctlWord, hcfg]
  | ctrl => simp only [State.ctlWord, hirq]
  | status => exact absurd rfl hc
  | cmd => exact hcmd
  | rounds => simp only [State.ctlWord, hrounds]
  | numbits => simp only [State.ctlWord, hnumbits]
  | limit => exact hlimit
  | attempts => exact exec_attempts_of_not_search h (Bool.eq_false_iff.2 fun hi => ha hi rfl)

/-- Settles O45: the offsets left out are those of the registers that `exec_ctlWord` and `exec_big` leave out. -/
theorem commandsLeaveTheRestOfTheWindow : Obligations.CommandsLeaveTheRestOfTheWindow := by
  unfold Obligations.CommandsLeaveTheRestOfTheWindow
  intro i s t off h hstatus hattempts hr hxy
  obtain ⟨⟨hcfg, -⟩, -⟩ := exec_frame h
  unfold State.windowWord
  rw [hcfg]
  cases hreg : regAt s.cfg.limbs off with
  | none => rfl
  | some reg =>
    cases reg with
    | ctl c =>
      have hoff := eq_regOffset_of_regAt hreg
      refine congrArg some (exec_ctlWord h ?_ fun hi => ?_)
      · rintro rfl; exact hstatus hoff
      · rintro rfl; exact hattempts hi hoff
    | limb z k =>
      obtain ⟨hoff, -, hk⟩ := toNat_of_regAt_limb hreg
      have hbig : t.big z = s.big z := by
        refine exec_big h (fun hz => ?_) fun hz hi => hxy hi ?_
        · subst hz
          by_contra hi
          exact hr hi (by rw [hoff, regionOf]; omega)
        · obtain rfl | rfl := hz <;> rw [hoff, regionOf] <;> omega
      simp only [hbig]

/-! ## Completions (40_command_cycle.md R113, R115, R116, R121) -/

/-- A command step succeeds, fails with a code and the outputs untouched, or leaves a search command `BUSY`. -/
theorem exec_completion_cases {i : Instr} {s t : State} (h : exec i s = .next t) :
    t.succeeded ∨ (∃ code, code ≠ .none ∧ t.failedWith code ∧ sameOutputs s t) ∨
      (t.phase = s.phase ∧ isSearch i = true) := by
  cases exec_ends h with
  | error code n g ht hcode =>
    rw [ht]
    exact .inr (.inl ⟨code, hcode, ⟨rfl, rfl, rfl, rfl, rfl⟩, ⟨rfl, rfl, rfl, rfl, rfl, rfl⟩⟩)
  | commit o n g fits ht => rw [ht]; exact .inl (State.completeOk_succeeded _ o)
  | begun ht _ hv =>
    refine .inr (.inr ⟨by rw [ht]; rfl, ?_⟩)
    cases i with
    | randprime | randcoprime => rfl
    | modexp | extgcd | modinv | mrtest => exact hv.elim
  | rejected g ht hi => exact .inr (.inr ⟨by rw [ht], hi⟩)

/-- Settles O46: a step that completes has succeeded, or failed with a code. -/
theorem errorCompletionWritesNoOutput : Obligations.ErrorCompletionWritesNoOutput := by
  unfold Obligations.ErrorCompletionWritesNoOutput
  intro i s t w hp h hidle
  obtain ⟨-, -, -, -, hcount, -⟩ := exec_frame h
  obtain ⟨-, -, hdone, herr, hcode⟩ | ⟨code, hne, ⟨-, -, hdone, herr, hcode⟩, hout⟩ | ⟨hphase, -⟩ :=
    exec_completion_cases h
  · simp [hdone, herr, hcode]
  · refine ⟨hdone, fun _ => ⟨by rwa [hcode], hout, hcount.imp_right (·.2)⟩, fun h0 => ?_⟩
    rw [herr] at h0; cases h0
  · rw [hidle, hp] at hphase; cases hphase

theorem State.engineStep_of_illegal {s : State} {w : Word} {e : Illegal} (hp : s.phase = .busy w)
    (hh : s.engine ≠ .held) (hd : decodeWord w = .error e) :
    s.engineStep = .next (s.completeErr .illegalCommand) := by
  simp [State.engineStep, hp, hh, hd]

/-- A command has completed, with success or an error: the phase is `IDLE` and DONE is 1. -/
def State.completed (t : State) : Prop := t.phase = .idle ∧ t.status.done = true

theorem State.succeeded.completed {t : State} (h : t.succeeded) : t.completed := by
  obtain ⟨hidle, -, hdone, -⟩ := h
  exact ⟨hidle, hdone⟩

theorem State.failedWith.completed {t : State} {code : ErrCode} (h : t.failedWith code) : t.completed := by
  obtain ⟨hidle, -, hdone, -⟩ := h
  exact ⟨hidle, hdone⟩

theorem exec_completed_of_not_search {i : Instr} {s t : State} (h : exec i s = .next t) (hi : isSearch i = false) :
    t.completed := by
  obtain hok | ⟨code, -, hfail, -⟩ | ⟨-, hsearch⟩ := exec_completion_cases h
  · exact hok.completed
  · exact hfail.completed
  · rw [hi] at hsearch; cases hsearch

/-- Settles O54: an illegal word completes at its decoding, and only a search command can stay `BUSY`. -/
theorem oneStepCommandsComplete : Obligations.OneStepCommandsComplete := by
  unfold Obligations.OneStepCommandsComplete
  intro s w _ hp hh hprime hcoprime
  cases hd : decodeWord w with
  | error e => exact ⟨_, State.engineStep_of_illegal hp hh hd, rfl, rfl⟩
  | ok i =>
    obtain ⟨t, ht⟩ := exec_next i s
    have hi : isSearch i = false := by
      cases i with
      | randprime => exact absurd hd hprime
      | randcoprime => exact absurd hd hcoprime
      | modexp | extgcd | modinv | mrtest => rfl
    exact ⟨t, (State.engineStep_of_decode hp hh hd).trans ht, exec_completed_of_not_search ht hi⟩

/-! ## Runs in which only the engine moves (40_command_cycle.md R122, R123) -/

theorem State.engineStep_of_idle {s : State} (hp : s.phase = .idle) : s.engineStep = .next s := by
  simp only [State.engineStep, hp]

/-- The state with exactly `n` turns listed, all of them the engine's. -/
def State.engineTurns (s : State) (n : Nat) : State := { s with turns := List.replicate n .engine }

theorem State.engineTurns_self {s : State} {n : Nat} (h : s.turns = List.replicate n .engine) :
    s.engineTurns n = s := by
  rw [State.engineTurns, ← h]

theorem runSteps_engineTurns_succ {s t : State} {n : Nat} (h : (s.engineTurns n).engineStep = .next t) :
    runSteps (n + 1) (s.engineTurns (n + 1)) = runSteps n t := by
  have hstep : step (s.engineTurns (n + 1)) = .next t := h
  rw [runSteps, hstep]

/-- The engine's next move runs the command, which leaves the order of moves alone. -/
theorem runSteps_engineTurns_of_exec {s t : State} {w : Word} {i : Instr} {n : Nat} (hp : s.phase = .busy w)
    (hh : s.engine ≠ .held) (hd : decodeWord w = .ok i) (h : exec i (s.engineTurns n) = .next t) :
    runSteps (n + 1) (s.engineTurns (n + 1)) = runSteps n (t.engineTurns n) := by
  obtain ⟨-, ⟨-, -, hturns, -⟩, -⟩ := exec_frame h
  rw [State.engineTurns_self hturns]
  exact runSteps_engineTurns_succ ((State.engineStep_of_decode (s := s.engineTurns n) hp hh hd).trans h)

/-- After `n` engine steps the command has completed. -/
def State.completesIn (s : State) (n : Nat) : Prop := ∃ t, runSteps n (s.engineTurns n) = .next t ∧ t.completed

/-- An idle engine changes nothing. -/
theorem State.completed.completesIn {s : State} (h : s.completed) (n : Nat) : s.completesIn n := by
  induction n with
  | zero => exact ⟨s.engineTurns 0, rfl, h⟩
  | succ n ih =>
    obtain ⟨t, ht, hdone⟩ := ih
    obtain ⟨hidle, -⟩ := h
    exact ⟨t, (runSteps_engineTurns_succ (State.engineStep_of_idle hidle)).trans ht, hdone⟩

theorem State.completesIn.of_exec {s t : State} {w : Word} {i : Instr} {n : Nat} (ht : t.completesIn n)
    (hp : s.phase = .busy w) (hh : s.engine ≠ .held) (hd : decodeWord w = .ok i)
    (h : exec i (s.engineTurns n) = .next t) : s.completesIn (n + 1) := by
  obtain ⟨u, hu, hdone⟩ := ht
  exact ⟨u, (runSteps_engineTurns_of_exec hp hh hd h).trans hu, hdone⟩

/-! ### A search below its ceiling (44_random_search.md R183) -/

theorem toNat_satInc_of_lt {n m : Word} (h : n.toNat < m.toNat) : (satInc n).toNat = n.toNat + 1 := by
  unfold satInc
  split
  · next hn => rw [hn] at h; bv_omega
  · bv_omega

theorem State.attempts_ne_limit {s : State} (hc : s.atCeiling = false) (hl : s.limit ≠ 0#32) :
    s.attempts.toNat ≠ s.limit.toNat := by
  intro h
  simp [State.atCeiling, hl, BitVec.eq_of_toNat_eq h] at hc

theorem exec_searching_cases {i : Instr} {s t : State} (hs : s.engine = .searching) (h : exec i s = .next t) :
    t.completed ∨ s.atCeiling = false ∧ ∃ g, t = { s with attempts := satInc s.attempts, rng := g } := by
  cases exec_ends h with
  | error code n g ht => rw [ht]; exact .inl ⟨rfl, rfl⟩
  | commit o n g fits ht => rw [ht]; exact .inl ⟨rfl, rfl⟩
  | begun _ hne => exact absurd hs hne
  | rejected g ht _ _ hc => exact .inr ⟨hc, g, ht⟩

theorem exec_validation_cases {i : Instr} {s t : State} (hs : s.engine ≠ .searching) (h : exec i s = .next t) :
    t.completed ∨ t = s.beginSearch := by
  cases exec_ends h with
  | error code n g ht => rw [ht]; exact .inl ⟨rfl, rfl⟩
  | commit o n g fits ht => rw [ht]; exact .inl ⟨rfl, rfl⟩
  | begun ht => exact .inr ht
  | rejected _ _ _ hs' => exact absurd hs' hs

/-- A search that is `k` counts below its ceiling has at most `k` attempts left, and one step that finds the ceiling
reached. -/
theorem State.completesIn_of_searching {w : Word} {i : Instr} (hd : decodeWord w = .ok i) (k : Nat) {s : State}
    (hp : s.phase = .busy w) (hs : s.engine = .searching) (hl : s.limit ≠ 0#32)
    (hk : s.attempts.toNat + k = s.limit.toNat) : s.completesIn (k + 1) := by
  induction k generalizing s with
  | zero =>
    obtain ⟨t, ht⟩ := exec_next i (s.engineTurns 0)
    refine .of_exec ?_ hp (by simp [hs]) hd ht
    obtain hdone | ⟨hc, -⟩ := exec_searching_cases (s := s.engineTurns 0) hs ht
    · exact hdone.completesIn 0
    · exact absurd hk (State.attempts_ne_limit hc hl)
  | succ k ih =>
    obtain ⟨t, ht⟩ := exec_next i (s.engineTurns (k + 1))
    refine .of_exec ?_ hp (by simp [hs]) hd ht
    obtain hdone | ⟨-, g, rfl⟩ := exec_searching_cases (s := s.engineTurns (k + 1)) hs ht
    · exact hdone.completesIn (k + 1)
    · have hcount : (satInc s.attempts).toNat + k = s.limit.toNat := by
        rw [toNat_satInc_of_lt (m := s.limit) (by omega)]; omega
      exact ih hp hs hl hcount

/-- Settles O55: validation takes one step unless it is past, and the attempts are bounded by the counts left. -/
theorem boundedSearchCompletes : Obligations.BoundedSearchCompletes := by
  unfold Obligations.BoundedSearchCompletes
  intro s w i hinv hp hd hi hh hl
  have hle := hinv.ceiling w i hp hd hi hl
  obtain ⟨k, hk⟩ := Nat.exists_eq_add_of_le hle
  by_cases hs : s.engine = .searching
  · obtain ⟨t, hrun, hdone⟩ := State.completesIn_of_searching hd k hp hs hl hk.symm
    exact ⟨k + 1, t, by omega, hrun, hdone⟩
  · obtain ⟨u, hu⟩ := exec_next i (s.engineTurns (k + 1))
    have hrest : u.completesIn (k + 1) := by
      obtain hdone | rfl := exec_validation_cases (s := s.engineTurns (k + 1)) hs hu
      · exact hdone.completesIn (k + 1)
      · exact State.completesIn_of_searching hd k hp rfl hl hk.symm
    obtain ⟨t, hrun, hdone⟩ := hrest.of_exec hp hh hd hu
    exact ⟨k + 2, t, by omega, hrun, hdone⟩

/-! ### RANDPRIME of one bit (44_random_search.md R186) -/

theorem intoRange_self (lo v : Nat) : intoRange lo lo v = lo := by
  obtain ⟨hlo, hhi⟩ := intoRange_mem (Nat.le_refl lo) v
  exact Nat.le_antisymm hhi hlo

/-- The one candidate of one bit is 1, which is not prime (43_primality.md R160). -/
theorem exec_randprime_one_bit {s : State} {v : Nat} {rest : List RngAnswer} (hs : s.engine = .searching)
    (hn : s.numbits = 1#16) (hl : s.limit = 0#32) (hg : s.rng.script = .ok v :: rest) :
    exec .randprime s =
      .next { s with attempts := satInc s.attempts, rng := { s.rng with script := rest } } := by
  have hbits : s.numBitsOperand = 1 := by rw [State.numBitsOperand, hn]; rfl
  have hc : s.atCeiling = false := by simp [State.atCeiling, hl]
  have hdraw : s.rng.draw 1 1 = (.ok 1, { s.rng with script := rest }) := by
    rw [Rng.draw_ok_script 1 1 hg, intoRange_self]
  have htest (g : Rng) : isProbablePrime 1 s.roundsOperand g = (.reject, g) := if_pos (Nat.le_refl 1)
  rw [exec_randprime_of_reject hs hc (by rw [hbits]; exact hdraw) (by rw [htest]), htest]

theorem runSteps_one_bit {s : State} (vs : List Nat) (hp : s.phase = .busy (encode .randprime))
    (hs : s.engine = .searching) (hn : s.numbits = 1#16) (hl : s.limit = 0#32) (hg : s.rng.script = vs.map .ok) :
    ∃ t, runSteps vs.length (s.engineTurns vs.length) = .next t ∧ t.phase = .busy (encode .randprime) ∧
      sameOutputs s t := by
  induction vs generalizing s with
  | nil => exact ⟨s.engineTurns 0, rfl, hp, sameOutputs_refl s⟩
  | cons v vs ih =>
    have hexec := exec_randprime_one_bit (s := s.engineTurns vs.length) hs hn hl hg
    obtain ⟨t, ht, hphase, hout⟩ :=
      ih (s := { s with attempts := satInc s.attempts, rng := { s.rng with script := vs.map .ok } }) hp hs hn hl rfl
    exact ⟨t, (runSteps_engineTurns_of_exec hp (by simp [hs]) (decodeWord_encode _) hexec).trans ht, hphase, hout⟩

/-- Settles O56: every step is an attempt that rejects the candidate 1, and no ceiling ends the attempts. -/
theorem oneBitSearchNeverCompletes : Obligations.OneBitSearchNeverCompletes := by
  unfold Obligations.OneBitSearchNeverCompletes
  intro s n vs hp hs hn hl hg hlen hturns
  subst hlen
  obtain ⟨t, hrun, hphase, hout⟩ := runSteps_one_bit vs hp hs hn hl hg
  rw [State.engineTurns_self hturns] at hrun
  exact ⟨t, hrun, hphase, hout⟩

end Sys2Proof.Machine

namespace Sys2Proof.Machine

open Sys2Proof

/-! ## Modular exponentiation as a power (41_modexp.md R131, R134) -/

/-- The loop runs long enough to use up the exponent (41_modexp.md R132). -/
theorem lt_two_pow_bitlen (v : Nat) : v < 2 ^ bitlen v := by
  unfold bitlen
  split
  · next hv => simp [hv]
  · exact Nat.lt_log2_self

/-- What the loop keeps is `acc * b^e` modulo `m`: squaring the base halves the exponent, and an odd bit moves one
factor `b` into the accumulator. -/
theorem modexpLoop_eq {m k acc e : Nat} (b : Nat) (hacc : acc < m) (he : e < 2 ^ k) :
    modexpLoop m k acc b e = acc * b ^ e % m := by
  induction k generalizing acc b e with
  | zero =>
    obtain rfl : e = 0 := by simpa using he
    simp [modexpLoop, Nat.mod_eq_of_lt hacc]
  | succ k ih =>
    have hm : 0 < m := Nat.zero_lt_of_lt hacc
    have hhalf : e / 2 < 2 ^ k := by omega
    have hsquares : (b * b % m) ^ (e / 2) ≡ b ^ (2 * (e / 2)) [MOD m] := by
      rw [pow_mul, pow_two]; exact (Nat.mod_modEq _ m).pow _
    unfold modexpLoop
    split
    · next h0 => simp [h0, Nat.mod_eq_of_lt hacc]
    · split
      · next hodd =>
        rw [ih _ (Nat.mod_lt _ hm) hhalf]
        calc acc * b % m * (b * b % m) ^ (e / 2)
          _ ≡ acc * b * b ^ (2 * (e / 2)) [MOD m] := (Nat.mod_modEq _ m).mul hsquares
          _ = acc * b ^ (2 * (e / 2) + 1) := by ring
          _ = acc * b ^ e := by rw [← hodd, Nat.div_add_mod]
      · next heven =>
        rw [ih _ hacc hhalf]
        have he2 : 2 * (e / 2) = e := by omega
        calc acc * (b * b % m) ^ (e / 2)
          _ ≡ acc * b ^ (2 * (e / 2)) [MOD m] := hsquares.mul_left acc
          _ = acc * b ^ e := by rw [he2]

/-- 41_modexp.md R134 with its exception. -/
theorem modexp_eq {m : Nat} (a e : Nat) (hm : m ≠ 0) :
    modexp a e m = if a % m = 0 then 0 else a ^ e % m := by
  unfold modexp
  split
  · rfl
  · next ha =>
    have hone : 1 < m := by
      by_contra h
      obtain rfl : m = 1 := by omega
      exact ha (Nat.mod_one a)
    rw [modexpLoop_eq _ hone (lt_two_pow_bitlen e), one_mul, ← Nat.pow_mod]

theorem modexp_lt {m : Nat} (a e : Nat) (hm : m ≠ 0) : modexp a e m < m := by
  rw [modexp_eq a e hm]
  split
  · exact Nat.pos_of_ne_zero hm
  · exact Nat.mod_lt _ (Nat.pos_of_ne_zero hm)

/-- With a positive exponent the short-circuit is no exception: a multiple of `m` has a power that is 0 modulo `m`. -/
theorem modexp_of_ne_zero {m e : Nat} (a : Nat) (hm : m ≠ 0) (he : e ≠ 0) : modexp a e m = a ^ e % m := by
  rw [modexp_eq a e hm]
  split
  · next ha => rw [Nat.pow_mod, ha, zero_pow he, Nat.zero_mod]
  · rfl

/-! ### The command (41_modexp.md R130) -/

theorem exec_modexp_of_ne_zero {s : State} (hm : s.value .m ≠ 0) :
    exec .modexp s = .next (s.completeOk { r := some (modexp (s.value .a) (s.value .b) (s.value .m)) }) :=
  if_neg hm

/-- A committed R below `2^OPW` is read back whole (30_encoding.md R95). -/
theorem State.Shaped.completeOk_value_r {s : State} (h : s.Shaped) {o : Outputs} {v : Nat} (ho : o.r = some v)
    (hv : v < 2 ^ s.cfg.opw) : (s.completeOk o).value .r = v := by
  rw [State.value, State.big, State.completeOk_r, ho]
  exact h.val_ofNat hv

/-- R after MODEXP: the result is below M, which its own register already holds. -/
theorem State.Shaped.modexp_value_r {s : State} (h : s.Shaped) (hm : s.value .m ≠ 0) :
    (s.completeOk { r := some (modexp (s.value .a) (s.value .b) (s.value .m)) }).value .r =
      modexp (s.value .a) (s.value .b) (s.value .m) :=
  h.completeOk_value_r rfl ((modexp_lt _ _ hm).trans (h.value_lt .m))

/-- Settles O25: the commit of `modexp`, read back from R. -/
theorem modexpComputesThePower : Obligations.ModexpComputesThePower := by
  unfold Obligations.ModexpComputesThePower
  intro s hs hm
  refine ⟨_, exec_modexp_of_ne_zero hm, State.completeOk_succeeded s _, ?_, ?_, commitBig_ready _ _ s.r, rfl, rfl,
    rfl, rfl, rfl⟩
  · rw [hs.modexp_value_r hm, modexp_eq _ _ hm]
  · rw [hs.modexp_value_r hm]; exact modexp_lt _ _ hm

/-! ### The round trip (41_modexp.md R134) -/

/-- Fermat's little theorem, for every base: an exponent that is 1 modulo `p - 1` changes nothing modulo `p`. -/
theorem pow_modEq_self_of_dvd_sub_one {p k : Nat} (hp : p.Prime) (hk : k ≠ 0) (h : p - 1 ∣ k - 1) (a : Nat) :
    a ^ k ≡ a [MOD p] := by
  have hfermat := Int.ModEq.pow_eq_pow hp h (Nat.one_le_iff_ne_zero.2 hk) Nat.one_pos a
  rw [pow_one] at hfermat
  exact_mod_cast hfermat

/-- The two primes' congruences joined: `a` need not be coprime to `p * q`. -/
theorem rsa_pow_mod {p q k a : Nat} (hp : p.Prime) (hq : q.Prime) (hpq : p ≠ q) (hk : k % ((p - 1) * (q - 1)) = 1)
    (ha : a < p * q) : a ^ k % (p * q) = a := by
  have hdvd : (p - 1) * (q - 1) ∣ k - 1 := by
    simpa [hk] using Nat.dvd_sub_mod (n := (p - 1) * (q - 1)) k
  have hk0 : k ≠ 0 := by rintro rfl; simp at hk
  have hmodp : a ^ k ≡ a [MOD p] := pow_modEq_self_of_dvd_sub_one hp hk0 (dvd_of_mul_right_dvd hdvd) a
  have hmodq : a ^ k ≡ a [MOD q] := pow_modEq_self_of_dvd_sub_one hq hk0 (dvd_of_mul_left_dvd hdvd) a
  have hcop : Nat.Coprime p q := (Nat.coprime_primes hp hq).2 hpq
  exact Nat.mod_eq_of_modEq ((Nat.modEq_and_modEq_iff_modEq_mul hcop).1 ⟨hmodp, hmodq⟩) ha

theorem modexp_modexp_of_rsa {p q e d a : Nat} (hp : p.Prime) (hq : q.Prime) (hpq : p ≠ q)
    (hed : e * d % ((p - 1) * (q - 1)) = 1) (ha : a < p * q) :
    modexp (modexp a e (p * q)) d (p * q) = a := by
  have hm : p * q ≠ 0 := Nat.ne_zero_of_lt ha
  have he : e ≠ 0 := by rintro rfl; simp at hed
  have hd : d ≠ 0 := by rintro rfl; simp at hed
  calc modexp (modexp a e (p * q)) d (p * q)
    _ = (a ^ e % (p * q)) ^ d % (p * q) := by rw [modexp_of_ne_zero _ hm hd, modexp_of_ne_zero _ hm he]
    _ = a ^ (e * d) % (p * q) := by rw [← Nat.pow_mod, ← pow_mul]
    _ = a := rsa_pow_mod hp hq hpq hed ha

/-- Settles O58: each MODEXP commits its `modexp`, and the two of them compose to the identity below `p * q`. -/
theorem rsaRoundTrip : Obligations.RsaRoundTrip := by
  unfold Obligations.RsaRoundTrip
  intro p q e d s t u hp hq hpq hed hs hsm hsa hsb ht hu hum hua hub
  have hm : p * q ≠ 0 := Nat.ne_zero_of_lt hsa
  have hsm0 : s.value .m ≠ 0 := hsm ▸ hm
  have hum0 : u.value .m ≠ 0 := hum ▸ hm
  rw [exec_modexp_of_ne_zero hsm0] at ht
  cases ht
  refine ⟨_, exec_modexp_of_ne_zero hum0, State.completeOk_succeeded u _, ?_⟩
  rw [hu.modexp_value_r hum0, hua, hs.modexp_value_r hsm0, hsm, hsb, hum, hub]
  exact modexp_modexp_of_rsa hp hq hpq hed hsa

end Sys2Proof.Machine

namespace Sys2Proof.Machine

open Sys2Proof

/-! ## Extended Euclid as arithmetic (42_gcd_inverse.md R140, R142, R143) -/

/-- The Bezout identity of 42_gcd_inverse.md R140: the identity for `(b, a mod b)`, with `a mod b = a - b * (a / b)`. -/
theorem extgcd_bezout (a b : Nat) :
    (a : Int) * (extgcd a b).2.1 + (b : Int) * (extgcd a b).2.2 = ((extgcd a b).1 : Int) := by
  induction b using Nat.strong_induction_on generalizing a with
  | _ b ih =>
    by_cases hb : b = 0
    · simp [hb]
    have hrec := ih _ (Nat.mod_lt a (Nat.pos_of_ne_zero hb)) b
    have hdiv : (a : Int) = ((a % b : Nat) : Int) + b * ((a / b : Nat) : Int) := by
      exact_mod_cast (Nat.mod_add_div a b).symm
    rw [extgcd_of_ne_zero a hb]
    linear_combination hrec + (extgcd b (a % b)).2.2 * hdiv

/-- Settles O26: the recursion is free of its depth bound, and its first component is the gcd. -/
theorem extgcdFollowsItsRecursion : Obligations.ExtgcdFollowsItsRecursion := by
  unfold Obligations.ExtgcdFollowsItsRecursion
  intro a b
  refine ⟨extgcd_zero_right a, fun hb g x1 y1 hrec => ?_, extgcd_bezout a b, extgcd_fst a b⟩
  rw [extgcd_of_ne_zero a hb, hrec]

/-- The bound on the gcd in 42_gcd_inverse.md R142. -/
theorem extgcd_fst_le (a b : Nat) : (extgcd a b).1 ≤ max a b := by
  rw [extgcd_fst]
  obtain rfl | hb := Nat.eq_zero_or_pos b
  · simp
  · exact (Nat.gcd_le_right a hb).trans (le_max_right a b)

/-- Settles O28: the coefficients' bounds are what makes the range check of every commit hold. -/
theorem coefficientsAlwaysFit : Obligations.CoefficientsAlwaysFit := by
  unfold Obligations.CoefficientsAlwaysFit
  exact ⟨fun a b => ⟨extgcd_fst_le a b, extgcd_natAbs_le a b⟩, fun _ _ _ hs h => exec_faults hs h⟩

/-- The loop invariant of 42_gcd_inverse.md R143: with `(g, x, y)` the recursion's triple for the remainders that are
left, the loop ends in `g` and in the combinations `x * s0 + y * s1` and `x * t0 + y * t1` of its coefficient pairs. -/
theorem extgcdIterLoop_eq {k r0 r1 : Nat} (h : r1 ≤ k) (s0 s1 t0 t1 : Int) :
    extgcdIterLoop k r0 r1 s0 s1 t0 t1 =
      ((extgcd r0 r1).1, (extgcd r0 r1).2.1 * s0 + (extgcd r0 r1).2.2 * s1,
        (extgcd r0 r1).2.1 * t0 + (extgcd r0 r1).2.2 * t1) := by
  induction k generalizing r0 r1 s0 s1 t0 t1 with
  | zero =>
    obtain rfl : r1 = 0 := Nat.le_zero.1 h
    simp [extgcdIterLoop]
  | succ k ih =>
    by_cases hr : r1 = 0
    · simp [extgcdIterLoop, hr]
    have hmod : r0 % r1 < r1 := Nat.mod_lt _ (Nat.pos_of_ne_zero hr)
    rw [extgcdIterLoop, if_neg hr, ← Nat.mod_eq_sub_div_mul, ih (by omega), extgcd_of_ne_zero r0 hr]
    refine Prod.ext rfl (Prod.ext ?_ ?_) <;> dsimp only <;> ring

/-- Settles O29: at the loop's start the pairs are `(1, 0)` and `(0, 1)`, so that the combinations are `x` and `y`. -/
theorem iterativeEuclidAgrees : Obligations.IterativeEuclidAgrees := by
  unfold Obligations.IterativeEuclidAgrees
  intro a b
  rw [extgcdIter, extgcdIterLoop_eq le_rfl]
  simp

/-! ## EXTGCD (42_gcd_inverse.md R141) -/

/-- In a well-shaped state the range check says nothing, and EXTGCD is a commit. -/
theorem State.Shaped.exec_extgcd {s : State} (h : s.Shaped) :
    exec .extgcd s = .next (s.completeOk (extgcdOutputs (extgcd (s.value .a) (s.value .b)))) := by
  rw [exec, execExtgcd, h.coeffsFit, State.checkFit_true]

/-- Committed magnitudes below `2^OPW` are read back whole (30_encoding.md R95). -/
theorem State.Shaped.completeOk_value_xy {s : State} (h : s.Shaped) {o : Outputs} {x y : Nat} (hox : o.x = some x)
    (hoy : o.y = some y) (hx : x < 2 ^ s.cfg.opw) (hy : y < 2 ^ s.cfg.opw) :
    (s.completeOk o).value .x = x ∧ (s.completeOk o).value .y = y := by
  simp only [State.value, State.big, State.completeOk_x, State.completeOk_y, hox, hoy]
  exact ⟨h.val_ofNat hx, h.val_ofNat hy⟩

theorem coeffsFit_iff {opw : Nat} {t : Nat × Int × Int} :
    coeffsFit opw t = true ↔ t.2.1.natAbs < 2 ^ opw ∧ t.2.2.natAbs < 2 ^ opw := by
  simp [coeffsFit]

/-- The three numbers that EXTGCD leaves in R, X and Y. -/
theorem State.Shaped.extgcd_values {s : State} (h : s.Shaped) :
    (s.completeOk (extgcdOutputs (extgcd (s.value .a) (s.value .b)))).value .r = Nat.gcd (s.value .a) (s.value .b) ∧
    (s.completeOk (extgcdOutputs (extgcd (s.value .a) (s.value .b)))).value .x =
      (extgcd (s.value .a) (s.value .b)).2.1.natAbs ∧
    (s.completeOk (extgcdOutputs (extgcd (s.value .a) (s.value .b)))).value .y =
      (extgcd (s.value .a) (s.value .b)).2.2.natAbs := by
  obtain ⟨hx, hy⟩ := coeffsFit_iff.1 (h.coeffsFit .a .b)
  refine ⟨?_, h.completeOk_value_xy rfl rfl hx hy⟩
  rw [← extgcd_fst]
  exact h.completeOk_value_r rfl ((extgcd_fst_le _ _).trans_lt (max_lt (h.value_lt .a) (h.value_lt .b)))

theorem State.completeOk_extgcd_flags (s : State) (t : Nat × Int × Int) :
    (s.completeOk (extgcdOutputs t)).status.xneg = decide (t.2.1 < 0) ∧
    (s.completeOk (extgcdOutputs t)).status.yneg = decide (t.2.2 < 0) ∧
    (s.completeOk (extgcdOutputs t)).status.prime = s.status.prime := ⟨rfl, rfl, rfl⟩

/-- A number from its sign flag and its magnitude (10_state.md R26). -/
theorem ite_neg_natAbs (c : Int) : (if decide (c < 0) then -(c.natAbs : Int) else (c.natAbs : Int)) = c := by
  simp only [decide_eq_true_eq]
  split <;> omega

theorem decide_neg_of_natAbs_eq_zero {c : Int} (h : c.natAbs = 0) : decide (c < 0) = false := by
  rw [Int.natAbs_eq_zero.1 h]; rfl

/-- Settles O27: the signs and magnitudes read back are those of the recursion's triple. -/
theorem extgcdCommitsBezout : Obligations.ExtgcdCommitsBezout := by
  unfold Obligations.ExtgcdCommitsBezout
  intro s hs
  obtain ⟨hr, hx, hy⟩ := hs.extgcd_values
  obtain ⟨hxneg, hyneg, hprime⟩ := s.completeOk_extgcd_flags (extgcd (s.value .a) (s.value .b))
  refine ⟨_, hs.exec_extgcd, State.completeOk_succeeded s _, ?_⟩
  rw [hr, hx, hy, hxneg, hyneg, ite_neg_natAbs, ite_neg_natAbs, extgcd_bezout, extgcd_fst]
  exact ⟨rfl, rfl, rfl, rfl, decide_neg_of_natAbs_eq_zero, decide_neg_of_natAbs_eq_zero, commitBig_ready _ _ s.r,
    commitBig_ready _ _ s.x, commitBig_ready _ _ s.y, hprime⟩

/-! ## MODINV (42_gcd_inverse.md R144 to R146) -/

/-- With `a * x + m * y = 1`, the coefficient `x` is an inverse of `a`, and so is `x + m`. -/
theorem mul_modinv_modEq {a m : Nat} {v : Int} (h : modinv a m = some v) : (a : Int) * v ≡ 1 [ZMOD m] := by
  simp only [modinv] at h
  split at h
  · cases h
  · next hg =>
    have hbez := extgcd_bezout a m
    rw [not_not.1 hg, Nat.cast_one] at hbez
    cases h
    refine Int.modEq_iff_dvd.2 ?_
    split
    · exact ⟨(extgcd a m).2.2 - a, by linear_combination -hbez⟩
    · exact ⟨(extgcd a m).2.2, by linear_combination -hbez⟩

/-- The contract of 42_gcd_inverse.md R144. -/
theorem modinv_of_coprime {a m : Nat} (hm : m ≠ 0) (h : Nat.gcd a m = 1) :
    ∃ v : Nat, modinv a m = some (v : Int) ∧ v < m ∧ a * v % m = 1 % m := by
  obtain ⟨z, hz⟩ : ∃ z, modinv a m = some z := ⟨_, if_neg (by rw [extgcd_fst, h]; decide)⟩
  obtain ⟨hz0, hzm⟩ := modinv_mem_range hm hz
  lift z to Nat using hz0
  exact ⟨z, hz, by exact_mod_cast hzm, by exact_mod_cast mul_modinv_modEq hz⟩

theorem exec_modinv_of_eq_some {s : State} {v : Nat} (hm : s.value .m ≠ 0)
    (hv : modinv (s.value .a) (s.value .m) = some (v : Int)) :
    exec .modinv s = .next (s.completeOk { r := some v }) := by
  have hfit := modinv_mem_range hm hv
  simp only [exec, execModinv, if_neg hm, hv, decide_eq_true hfit, State.checkFit_true, Int.toNat_natCast]

/-- Settles O30: the inverse is below M, so R holds it whole. -/
theorem modinvCommitsTheInverse : Obligations.ModinvCommitsTheInverse := by
  unfold Obligations.ModinvCommitsTheInverse
  intro s hs hm hcop
  obtain ⟨v, hv, hlt, hinv⟩ := modinv_of_coprime hm hcop
  refine ⟨_, exec_modinv_of_eq_some hm hv, State.completeOk_succeeded s _, ?_⟩
  rw [hs.completeOk_value_r rfl (hlt.trans (hs.value_lt .m))]
  exact ⟨hlt, hinv, commitBig_ready _ _ s.r, rfl, rfl, rfl, rfl, rfl⟩

end Sys2Proof.Machine

namespace Sys2Proof.Machine

open Sys2Proof

/-! ## The decomposition of `n - 1` (43_primality.md R162) -/

/-- The halving loop keeps `2^r * d`, and its bound is enough to make `d` odd. -/
theorem decomposeLoop_spec {k d : Nat} (r : Nat) (hd0 : d ≠ 0) (hd : d < 2 ^ k) :
    2 ^ (decomposeLoop k d r).1 * (decomposeLoop k d r).2 = 2 ^ r * d ∧ (decomposeLoop k d r).2 % 2 = 1 := by
  induction k generalizing d r with
  | zero => exact absurd (Nat.lt_one_iff.1 hd) hd0
  | succ k ih =>
    unfold decomposeLoop
    split
    · next heven =>
      obtain ⟨hprod, hodd⟩ := ih (d := d / 2) (r + 1) (by omega) (by omega)
      refine ⟨?_, hodd⟩
      calc 2 ^ (decomposeLoop k (d / 2) (r + 1)).1 * (decomposeLoop k (d / 2) (r + 1)).2
        _ = 2 ^ r * (2 * (d / 2)) := by rw [hprod, pow_succ, mul_assoc]
        _ = 2 ^ r * d := by rw [Nat.two_mul_div_two_of_even (Nat.even_iff.2 heven)]
    · next hodd => exact ⟨rfl, by dsimp only; omega⟩

theorem decompose_spec {n : Nat} (hn : 2 ≤ n) :
    2 ^ (decompose n).1 * (decompose n).2 = n - 1 ∧ (decompose n).2 % 2 = 1 := by
  simpa [decompose] using
    decomposeLoop_spec (k := bitlen n) (d := n - 1) 0 (by omega) ((Nat.sub_le n 1).trans_lt (lt_two_pow_bitlen n))

theorem decompose_snd_ne_zero {n : Nat} (hn : 2 ≤ n) : (decompose n).2 ≠ 0 := by
  have := (decompose_spec hn).2
  omega

/-- An even `n - 1` is not its own odd part. -/
theorem decompose_fst_ne_zero {n : Nat} (hn : 2 ≤ n) (hodd : n % 2 = 1) : (decompose n).1 ≠ 0 := by
  obtain ⟨hprod, hd⟩ := decompose_spec hn
  intro h0
  rw [h0, pow_zero, one_mul] at hprod
  omega

/-- Settles O32: the loop starts from `r = 0` and `d = n - 1`. -/
theorem decomposeSplitsOffPowersOfTwo : Obligations.DecomposeSplitsOffPowersOfTwo := by
  unfold Obligations.DecomposeSplitsOffPowersOfTwo
  intro n hn hodd
  have hn2 : 2 ≤ n := by omega
  obtain ⟨hprod, hd⟩ := decompose_spec hn2
  exact ⟨hprod.symm, hd, Nat.one_le_iff_ne_zero.2 (decompose_fst_ne_zero hn2 hodd)⟩

/-! ## One Miller-Rabin round (43_primality.md R161) -/

/-- The first squaring moves into the exponent. -/
theorem sq_mod_pow_mod (n x j : Nat) : (x * x % n) ^ 2 ^ j % n = x ^ 2 ^ (j + 1) % n := by
  rw [← Nat.pow_mod, ← pow_two, ← pow_mul, ← pow_succ']

/-- The inner loop finds the first `n - 1` among the squares. Its early exit at 1 loses none, since every later square
is 1 too. -/
theorem squarings_iff {n : Nat} (hn : 3 ≤ n) (k x : Nat) :
    squarings n k x = true ↔ ∃ j < k, x ^ 2 ^ (j + 1) % n = n - 1 := by
  induction k generalizing x with
  | zero => simp [squarings]
  | succ k ih =>
    have hsq : x ^ 2 ^ (0 + 1) % n = x * x % n := by rw [zero_add, pow_one, pow_two]
    rw [Nat.exists_lt_succ_left, hsq]
    unfold squarings
    split
    · next hlast => simp [hlast]
    · next hlast =>
      rw [or_iff_right hlast]
      split
      · next hone =>
        refine iff_of_false Bool.false_ne_true ?_
        rintro ⟨j, -, hj⟩
        rw [← sq_mod_pow_mod, hone, one_pow, Nat.mod_eq_of_lt (by omega)] at hj
        omega
      · simp only [ih, sq_mod_pow_mod]

/-- The round for any exponent `d` and count `r` that are not 0. -/
theorem witnessPasses_iff {n r d : Nat} (a : Nat) (hn : 3 ≤ n) (hr : r ≠ 0) (hd : d ≠ 0) :
    witnessPasses n a r d = true ↔ a ^ d % n = 1 ∨ ∃ j < r, a ^ (2 ^ j * d) % n = n - 1 := by
  obtain ⟨r, rfl⟩ := Nat.exists_eq_succ_of_ne_zero hr
  have hpow (j : Nat) : (a ^ d % n) ^ 2 ^ (j + 1) % n = a ^ (2 ^ (j + 1) * d) % n := by
    rw [← Nat.pow_mod, ← pow_mul, mul_comm]
  have hround : witnessPasses n a (r + 1) d = true ↔
      (a ^ d % n = 1 ∨ a ^ d % n = n - 1) ∨ squarings n r (a ^ d % n) = true := by
    simp [witnessPasses, modexp_of_ne_zero a (by omega : n ≠ 0) hd]
  rw [hround, squarings_iff hn, Nat.exists_lt_succ_left, pow_zero, one_mul, or_assoc]
  simp only [hpow]

/-- Settles O59: the round of the exponent and count that `decompose` answers. -/
theorem witnessRoundFollowsItsRule : Obligations.WitnessRoundFollowsItsRule := by
  unfold Obligations.WitnessRoundFollowsItsRule
  intro n a hn hodd _ _
  have hn2 : 2 ≤ n := by omega
  exact witnessPasses_iff a (by omega) (decompose_fst_ne_zero hn2 hodd) (decompose_snd_ne_zero hn2)

/-! ### A prime has no rejecting witness (43_primality.md R164) -/

/-- Going back from 1 by square roots, either every root is 1 or one of them is -1: a domain has no other square root
of 1. -/
theorem eq_one_or_exists_pow_eq_neg_one {R : Type*} [CommRing R] [NoZeroDivisors R] {x : R} {r : Nat}
    (h : x ^ 2 ^ r = 1) : x = 1 ∨ ∃ j < r, x ^ 2 ^ j = -1 := by
  induction r with
  | zero => exact .inl (by simpa using h)
  | succ r ih =>
    rw [pow_succ, pow_mul, pow_two] at h
    obtain hone | hneg := mul_self_eq_one_iff.1 h
    · exact (ih hone).imp_right fun ⟨j, hj, hx⟩ => ⟨j, hj.trans r.lt_succ_self, hx⟩
    · exact .inr ⟨r, r.lt_succ_self, hneg⟩

/-- Fermat's theorem gives `a^(2^r * d) = 1`, whose square roots are taken down to `a^d`. -/
theorem witnessPasses_of_prime {p a : Nat} (hp : p.Prime) (hp3 : 3 ≤ p) (ha0 : a ≠ 0) (ha : a < p) :
    witnessPasses p a (decompose p).1 (decompose p).2 = true := by
  have : Fact p.Prime := ⟨hp⟩
  have hodd : p % 2 = 1 := hp.eq_two_or_odd.resolve_left (by omega)
  have hp2 : 2 ≤ p := by omega
  have hunit : (a : ZMod p) ≠ 0 := by
    rw [Ne, ZMod.natCast_eq_zero_iff]
    exact Nat.not_dvd_of_pos_of_lt (Nat.pos_of_ne_zero ha0) ha
  have hfermat : ((a : ZMod p) ^ (decompose p).2) ^ 2 ^ (decompose p).1 = 1 := by
    rw [← pow_mul, mul_comm, (decompose_spec hp2).1, ZMod.pow_card_sub_one_eq_one hunit]
  have hminus : ((p - 1 : Nat) : ZMod p) = -1 := by
    rw [Nat.cast_pred hp.pos, ZMod.natCast_self, zero_sub]
  have hmod {e v : Nat} (hv : v < p) (h : (a : ZMod p) ^ e = (v : ZMod p)) : a ^ e % p = v := by
    rw [← Nat.cast_pow, ZMod.natCast_eq_natCast_iff', Nat.mod_eq_of_lt hv] at h
    exact h
  rw [witnessPasses_iff a hp3 (decompose_fst_ne_zero hp2 hodd) (decompose_snd_ne_zero hp2)]
  obtain hone | ⟨j, hj, hneg⟩ := eq_one_or_exists_pow_eq_neg_one hfermat
  · exact .inl (hmod (by omega) (by rw [hone, Nat.cast_one]))
  · exact .inr ⟨j, hj, hmod (by omega) (by rw [hminus, mul_comm, pow_mul, hneg])⟩

/-! ## The witness loop (43_primality.md R163) -/

section WitnessLoop

variable {n r d : Nat} {g g' : Rng}

theorem witnessLoop_of_fail (k : Nat) (h : g.draw 2 (n - 2) = (.fail, g')) :
    witnessLoop n r d (k + 1) g = (.drawFailed, g') := by
  simp [witnessLoop, h]

theorem witnessLoop_of_ok {a : Nat} (k : Nat) (h : g.draw 2 (n - 2) = (.ok a, g')) :
    witnessLoop n r d (k + 1) g = if witnessPasses n a r d then witnessLoop n r d k g' else (.reject, g') := by
  simp [witnessLoop, h]

theorem witnessLoop_of_script {a : Nat} {rest : List RngAnswer} (k : Nat) (ha : 2 ≤ a ∧ a ≤ n - 2)
    (h : g.script = .ok a :: rest) :
    witnessLoop n r d (k + 1) g =
      if witnessPasses n a r d then witnessLoop n r d k { g with script := rest }
      else (.reject, { g with script := rest }) := by
  refine witnessLoop_of_ok k ?_
  rw [Rng.draw_ok_script 2 (n - 2) h, intoRange_of_mem ha.1 ha.2]

/-- Scripted witnesses that pass are used up one by one, and the loop goes on after them. -/
theorem witnessLoop_of_passing_script {rest : List RngAnswer} (k : Nat) (ws : List Nat)
    (hws : ∀ a ∈ ws, (2 ≤ a ∧ a ≤ n - 2) ∧ witnessPasses n a r d = true) (h : g.script = ws.map .ok ++ rest) :
    witnessLoop n r d (ws.length + k) g = witnessLoop n r d k { g with script := rest } := by
  induction ws generalizing g with
  | nil => rw [List.length_nil, zero_add, ← show g.script = rest from h]
  | cons a ws ih =>
    obtain ⟨⟨hrange, hpass⟩, hws⟩ := List.forall_mem_cons.1 hws
    rw [List.length_cons, Nat.add_right_comm, witnessLoop_of_script _ hrange h, if_pos hpass, ih hws rfl]

/-- The first scripted witness that does not pass ends the draws. -/
theorem witnessLoop_of_rejecting_script {a : Nat} {rest : List RngAnswer} (k : Nat) (pre : List Nat)
    (hpre : ∀ p ∈ pre, (2 ≤ p ∧ p ≤ n - 2) ∧ witnessPasses n p r d = true) (ha : 2 ≤ a ∧ a ≤ n - 2)
    (hrej : witnessPasses n a r d = false) (h : g.script = pre.map .ok ++ .ok a :: rest) :
    witnessLoop n r d (pre.length + (k + 1)) g = (.reject, { g with script := rest }) := by
  rw [witnessLoop_of_passing_script (k + 1) pre hpre h, witnessLoop_of_script k ha rfl, hrej,
    if_neg Bool.false_ne_true]

/-- When every value of the range passes, the verdict is that of the draws. -/
theorem witnessLoop_fst_of_all_pass (hn : 4 ≤ n)
    (hpass : ∀ a, 2 ≤ a → a ≤ n - 2 → witnessPasses n a r d = true) (k : Nat) (g : Rng) :
    (witnessLoop n r d k g).1 = if g.answersOk 2 (n - 2) k then .accept else .drawFailed := by
  induction k generalizing g with
  | zero => rfl
  | succ k ih =>
    rcases hd : g.draw 2 (n - 2) with ⟨ans, g'⟩
    cases ans with
    | fail => rw [witnessLoop_of_fail k hd, Rng.answersOk_of_fail k hd, if_neg Bool.false_ne_true]
    | ok a =>
      obtain ⟨h2, hle⟩ := Rng.draw_mem (by omega) hd
      rw [witnessLoop_of_ok k hd, if_pos (hpass a h2 hle), ih, Rng.answersOk_of_ok k hd]

end WitnessLoop

/-! ## The verdict (43_primality.md R160, R163, R165) -/

theorem isProbablePrime_of_odd {n : Nat} (hn : 5 ≤ n) (hodd : n % 2 = 1) (k : Nat) (g : Rng) :
    isProbablePrime n k g = witnessLoop n (decompose n).1 (decompose n).2 k g := by
  rw [isProbablePrime, if_neg (by omega), if_neg (by omega), if_neg (by omega)]

/-- The verdict on a number that needs no draw. -/
def verdictWithoutDraw (n : Nat) : Bool := n = 2 ∨ n = 3 ∨ 5 ≤ n ∧ n % 2 = 1

theorem verdictWithoutDraw_iff {n : Nat} : verdictWithoutDraw n = true ↔ n = 2 ∨ n = 3 ∨ 5 ≤ n ∧ n % 2 = 1 :=
  decide_eq_true_iff

theorem verdictWithoutDraw_eq_false_iff {n : Nat} : verdictWithoutDraw n = false ↔ n ≤ 1 ∨ 4 ≤ n ∧ n % 2 = 0 := by
  rw [← Bool.not_eq_true, verdictWithoutDraw_iff]
  omega

theorem isProbablePrime_without_draw {n k : Nat} (h : n < 5 ∨ n % 2 = 0 ∨ k = 0) (g : Rng) :
    isProbablePrime n k g = (if verdictWithoutDraw n then .accept else .reject, g) := by
  cases hv : verdictWithoutDraw n with
  | true =>
    obtain h2 | h3 | ⟨h5, hodd⟩ := verdictWithoutDraw_iff.1 hv
    · rw [h2]; rfl
    · rw [h3]; rfl
    · obtain rfl : k = 0 := by omega
      exact isProbablePrime_of_odd h5 hodd 0 g
  | false =>
    obtain h1 | ⟨h4, heven⟩ := verdictWithoutDraw_eq_false_iff.1 hv
    · exact if_pos h1
    · rw [isProbablePrime, if_neg (by omega), if_neg (by omega), if_pos heven]; rfl

/-! ## The command (43_primality.md R163) -/

theorem exec_mrtest_of_verdict {s : State} {g : Rng} (v : Bool)
    (h : isProbablePrime (s.value .a) s.rounds.toNat s.rng = (if v then .accept else .reject, g)) :
    exec .mrtest s = .next (State.completeOk { s with rng := g } { prime := some v }) := by
  simp only [exec, execMrtest, State.roundsOperand, h]
  cases v <;> rfl

theorem exec_mrtest_of_drawFailed {s : State} {g : Rng}
    (h : isProbablePrime (s.value .a) s.rounds.toNat s.rng = (.drawFailed, g)) :
    exec .mrtest s = .next (State.completeErr { s with rng := g } .randomnessFailure) := by
  simp only [exec, execMrtest, State.roundsOperand, h]

/-- Settles O33: a verdict without a draw leaves the RNG as it was. -/
theorem mrtestDrawsNothingInItsEdgeCases : Obligations.MrtestDrawsNothingInItsEdgeCases := by
  unfold Obligations.MrtestDrawsNothingInItsEdgeCases
  intro s
  refine ⟨verdictWithoutDraw (s.value .a), ?_, ?_, ?_, ?_, fun h => ?_⟩
  · exact fun h1 => verdictWithoutDraw_eq_false_iff.2 (.inl h1)
  · exact fun h => verdictWithoutDraw_iff.2 (by omega)
  · exact fun h4 heven => verdictWithoutDraw_eq_false_iff.2 (.inr ⟨h4, heven⟩)
  · exact fun h5 hodd => verdictWithoutDraw_iff.2 (.inr (.inr ⟨h5, hodd⟩))
  · have hcase : s.value .a < 5 ∨ s.value .a % 2 = 0 ∨ s.rounds.toNat = 0 :=
      h.imp_right (Or.imp_right fun h0 => by rw [h0]; rfl)
    exact exec_mrtest_of_verdict _ (isProbablePrime_without_draw hcase s.rng)

/-- A list passes a test whole, or splits at the first element that fails it. -/
theorem forall_mem_or_split_at_first {α : Type*} (p : α → Bool) (l : List α) :
    (∀ a ∈ l, p a = true) ∨ ∃ pre a post, l = pre ++ a :: post ∧ (∀ b ∈ pre, p b = true) ∧ p a = false := by
  cases hfirst : l.find? fun a => !p a with
  | none => exact .inl (by simpa using hfirst)
  | some a =>
    obtain ⟨hfail, pre, post, hl, hpre⟩ := List.find?_eq_some_iff_append.1 hfirst
    exact .inr ⟨pre, a, post, hl, by simpa using hpre, by simpa using hfail⟩

/-- Settles O34: the witnesses are split at the first that does not pass. -/
theorem mrtestVerdictFollowsItsWitnesses : Obligations.MrtestVerdictFollowsItsWitnesses := by
  unfold Obligations.MrtestVerdictFollowsItsWitnesses
  intro s ws rest h5 hodd hlen hrange hscript
  have hloop := isProbablePrime_of_odd h5 hodd s.rounds.toNat s.rng
  generalize decompose (s.value .a) = rd at hloop ⊢
  obtain hpass | ⟨pre, a, post, rfl, hpass, hrej⟩ :=
    forall_mem_or_split_at_first (fun a => witnessPasses (s.value .a) a rd.1 rd.2) ws
  · have hrun : isProbablePrime (s.value .a) s.rounds.toNat s.rng = (.accept, { s.rng with script := rest }) := by
      rw [hloop, ← hlen]
      exact witnessLoop_of_passing_script 0 ws (fun a ha => ⟨hrange a ha, hpass a ha⟩) hscript
    exact ⟨_, exec_mrtest_of_verdict true hrun, State.completeOk_succeeded _ _, (List.all_eq_true.2 hpass).symm, rfl,
      fun _ => rfl, nofun⟩
  · obtain ⟨hpre, ha, -⟩ : (∀ p ∈ pre, 2 ≤ p ∧ p ≤ s.value .a - 2) ∧ (2 ≤ a ∧ a ≤ s.value .a - 2) ∧ _ := by
      simpa only [List.forall_mem_append, List.forall_mem_cons] using hrange
    have hall : (pre ++ a :: post).all (fun a => witnessPasses (s.value .a) a rd.1 rd.2) = false := by
      simp [hrej]
    have hrun : isProbablePrime (s.value .a) s.rounds.toNat s.rng =
        (.reject, { s.rng with script := post.map .ok ++ rest }) := by
      rw [hloop, ← hlen, List.length_append, List.length_cons]
      exact witnessLoop_of_rejecting_script post.length pre (fun p hp => ⟨hpre p hp, hpass p hp⟩) ha hrej
        (by simpa using hscript)
    exact ⟨_, exec_mrtest_of_verdict false hrun, State.completeOk_succeeded _ _, hall.symm, rfl, nofun,
      fun _ => ⟨pre, a, post, rfl, rfl, hpass, hrej⟩⟩

/-- Settles O35: no witness rejects a prime, so the draws alone decide. -/
theorem primesAlwaysPassMrtest : Obligations.PrimesAlwaysPassMrtest := by
  unfold Obligations.PrimesAlwaysPassMrtest
  intro s hp
  by_cases h5 : 5 ≤ s.value .a
  · have hodd : s.value .a % 2 = 1 := hp.eq_two_or_odd.resolve_left (by omega)
    have hverdict := witnessLoop_fst_of_all_pass (by omega)
      (fun a h2 hle => witnessPasses_of_prime hp (by omega) (by omega) (by omega)) s.rounds.toNat s.rng
    rw [← isProbablePrime_of_odd h5 hodd] at hverdict
    cases hok : s.rng.answersOk 2 (s.value .a - 2) s.rounds.toNat with
    | true =>
      rw [hok] at hverdict
      exact ⟨_, exec_mrtest_of_verdict true (Prod.ext hverdict rfl),
        fun _ => ⟨State.completeOk_succeeded _ _, rfl⟩, fun _ h => Bool.noConfusion h⟩
    | false =>
      rw [hok] at hverdict
      refine ⟨_, exec_mrtest_of_drawFailed (Prod.ext hverdict rfl), fun h => ?_, fun _ _ => ?_⟩
      · exact h.elim (fun h => absurd h5 h.not_ge) nofun
      · exact ⟨⟨rfl, rfl, rfl, rfl, rfl⟩, sameOutputs_refl s⟩
  · have hv : verdictWithoutDraw (s.value .a) = true := by
      have h2 := hp.two_le
      have hodd := hp.eq_two_or_odd
      exact verdictWithoutDraw_iff.2 (by omega)
    have hrun := isProbablePrime_without_draw (k := s.rounds.toNat) (.inl (Nat.lt_of_not_le h5)) s.rng
    rw [hv] at hrun
    exact ⟨_, exec_mrtest_of_verdict true hrun, fun _ => ⟨State.completeOk_succeeded _ _, rfl⟩, fun h => absurd h h5⟩

end Sys2Proof.Machine

namespace Sys2Proof.Machine

open Sys2Proof

/-! ## Completions of the search commands (44_random_search.md R183) -/

theorem State.completeErr_failedWith (s : State) (code : ErrCode) : (s.completeErr code).failedWith code :=
  ⟨rfl, rfl, rfl, rfl, rfl⟩

theorem sameOutputs_completeErr (s : State) (code : ErrCode) : sameOutputs s (s.completeErr code) :=
  sameOutputs_refl s

theorem State.completeErr_not_succeeded (s : State) (code : ErrCode) : ¬ (s.completeErr code).succeeded := by
  rintro ⟨-, -, -, herr, -⟩
  cases herr

/-- The state after an attempt that counts, leaves the RNG at `g`, and commits its candidate `c`. -/
def State.commitCandidate (s : State) (c : Nat) (g : Rng) : State :=
  State.completeOk { s with attempts := satInc s.attempts, rng := g } { r := some c }

theorem State.commitCandidate_succeeded (s : State) (c : Nat) (g : Rng) : (s.commitCandidate c g).succeeded :=
  State.completeOk_succeeded _ _

theorem State.commitCandidate_ready (s : State) (c : Nat) (g : Rng) : (s.commitCandidate c g).r.ready = true :=
  commitBig_ready _ c s.r

/-- What a committed candidate leaves unchanged, and its count and draws. -/
theorem State.commitCandidate_frame (s : State) (c : Nat) (g : Rng) :
    (s.commitCandidate c g).attempts = satInc s.attempts ∧ (s.commitCandidate c g).rng = g ∧
      (s.commitCandidate c g).x = s.x ∧ (s.commitCandidate c g).y = s.y ∧
      (s.commitCandidate c g).status.prime = s.status.prime := ⟨rfl, rfl, rfl, rfl, rfl⟩

theorem State.Shaped.commitCandidate_value_r {s : State} (h : s.Shaped) {c : Nat} (hc : c < 2 ^ s.cfg.opw) (g : Rng) :
    (s.commitCandidate c g).value .r = c :=
  State.Shaped.completeOk_value_r (s := { s with attempts := satInc s.attempts, rng := g }) ⟨h.cfg_ok, h.limbs⟩ rfl hc

/-- An attempt below its ceiling whose draw answers and whose candidate is accepted. -/
theorem State.attempt_of_accept {s : State} {lo hi c : Nat} {g g' : Rng} {accept : Nat → Rng → Verdict × Rng}
    (hc : s.atCeiling = false) (hd : s.rng.draw lo hi = (.ok c, g)) (ha : accept c g = (.accept, g')) :
    s.attempt lo hi accept = s.commitCandidate c g' := by
  simp only [State.attempt, hc, hd, ha, Bool.false_eq_true, if_false]
  rfl

/-- An attempt of a running search that succeeds has drawn the candidate that it commits, and accepted it. -/
theorem State.attempt_succeeded {s : State} {lo hi : Nat} {accept : Nat → Rng → Verdict × Rng}
    (hs : s.engine = .searching) (h : (s.attempt lo hi accept).succeeded) :
    ∃ c g g', s.rng.draw lo hi = (.ok c, g) ∧ accept c g = (.accept, g') ∧
      s.attempt lo hi accept = s.commitCandidate c g' := by
  obtain ⟨-, ht⟩ | ⟨-, g, -, ht⟩ | ⟨hc, c, g, hd, ht⟩ := s.attempt_cases lo hi accept
  · rw [ht] at h
    exact absurd h (State.completeErr_not_succeeded _ _)
  · rw [ht] at h
    exact absurd h (State.completeErr_not_succeeded _ _)
  · cases hv : (accept c g).1 with
    | accept => exact ⟨c, g, _, hd, Prod.ext hv rfl, State.attempt_of_accept hc hd (Prod.ext hv rfl)⟩
    | reject =>
      rw [State.attempt_of_reject hc hd hv] at h
      obtain ⟨-, hempty, -⟩ := h
      cases hs.symm.trans hempty
    | drawFailed =>
      rw [ht, hv] at h
      exact absurd h (State.completeErr_not_succeeded _ _)

/-! ## RANDPRIME (44_random_search.md R180 to R184, R187) -/

/-- Settles O36: the two outcomes of the validation. -/
theorem randprimeChecksItsBitLength : Obligations.RandprimeChecksItsBitLength := by
  unfold Obligations.RandprimeChecksItsBitLength
  intro s hs
  have hexec := execRandprime_validates (s := s) (by simp [hs])
  refine ⟨fun hbad => ?_, fun ⟨h1, hle⟩ => ?_⟩
  · exact ⟨_, hexec.trans (if_pos hbad), s.completeErr_failedWith _, rfl, sameOutputs_completeErr s _, rfl, rfl⟩
  · have hgood : ¬ (s.numBitsOperand = 0 ∨ s.cfg.opw < s.numBitsOperand) := by
      simp only [State.numBitsOperand]; omega
    exact hexec.trans (if_neg hgood)

/-- What Miller-Rabin accepts is 2, 3, or odd, whatever its draws (43_primality.md R160). -/
theorem of_isProbablePrime_accept {n k : Nat} {g g' : Rng} (h : isProbablePrime n k g = (.accept, g')) :
    n = 2 ∨ n = 3 ∨ 5 ≤ n ∧ n % 2 = 1 := by
  by_contra hn
  rw [isProbablePrime_without_draw (by omega), if_neg (mt verdictWithoutDraw_iff.1 hn)] at h
  cases h

/-- The range of 44_random_search.md R180 is not empty. -/
theorem two_pow_pred_le {n : Nat} (hn : 1 ≤ n) : 2 ^ (n - 1) ≤ 2 ^ n - 1 :=
  Nat.le_sub_one_of_lt (Nat.pow_lt_pow_right (by decide) (by omega))

/-- Settles O38: the candidate has NUMBITS bits, so R holds it whole, and one of three bits or more is neither 2 nor
3. -/
theorem randprimeCommitsItsCandidate : Obligations.RandprimeCommitsItsCandidate := by
  unfold Obligations.RandprimeCommitsItsCandidate
  intro s c g g' hshape hs ⟨h1, hopw⟩ hc hd htest
  have hexec : exec .randprime s = .next (s.commitCandidate c g') :=
    (execRandprime_searching hs).trans (congrArg _ (State.attempt_of_accept hc hd htest))
  obtain ⟨hlo, hhi⟩ := Rng.draw_mem (two_pow_pred_le (n := s.numbits.toNat) h1) hd
  have hfits : c < 2 ^ s.cfg.opw :=
    calc c
      _ < 2 ^ s.numbits.toNat := Nat.lt_of_le_sub_one (Nat.two_pow_pos _) hhi
      _ ≤ 2 ^ s.cfg.opw := Nat.pow_le_pow_right (by decide) hopw
  have hodd (h3 : 3 ≤ s.numbits.toNat) : c % 2 = 1 := by
    have hfour : 2 ^ 2 ≤ 2 ^ (s.numbits.toNat - 1) := Nat.pow_le_pow_right (by decide) (by omega)
    have := of_isProbablePrime_accept htest
    omega
  exact ⟨_, hexec, s.commitCandidate_succeeded c g', hshape.commitCandidate_value_r hfits g',
    s.commitCandidate_ready c g', hlo, hhi, hodd, s.commitCandidate_frame c g'⟩

/-! ## RANDCOPRIME (44_random_search.md R190 to R194) -/

/-- The range of 44_random_search.md R190 ends below M. -/
theorem Rng.draw_lt {g g' : Rng} {m c : Nat} (hm : m ≠ 0) (hd : g.draw 0 (m - 1) = (.ok c, g')) : c < m :=
  Nat.lt_of_le_sub_one (Nat.pos_of_ne_zero hm) (Rng.draw_mem (Nat.zero_le _) hd).2

theorem acceptCoprime_eq_accept {phi c : Nat} (h2 : 2 ≤ c) (hlt : c < phi) (hcop : Nat.gcd c phi = 1) (g : Rng) :
    acceptCoprime phi c g = (.accept, g) :=
  if_pos ⟨h2, hlt, (extgcd_fst c phi).trans hcop⟩

theorem gcd_eq_one_of_acceptCoprime {phi c : Nat} {g g' : Rng} (h : acceptCoprime phi c g = (.accept, g')) :
    Nat.gcd c phi = 1 := by
  by_contra hcop
  rw [acceptCoprime_of_reject (.inr hcop)] at h
  cases h

/-- Settles O37: the two outcomes of the validation, and consecutive numbers are coprime. -/
theorem randcoprimeChecksItsTotient : Obligations.RandcoprimeChecksItsTotient := by
  unfold Obligations.RandcoprimeChecksItsTotient
  intro s hs
  have hexec := execRandcoprime_validates (s := s) (by simp [hs])
  refine ⟨fun hbad => ?_, fun h3 => ⟨hexec.trans (if_neg (by omega)), ?_⟩⟩
  · exact ⟨_, hexec.trans (if_pos hbad), s.completeErr_failedWith _, rfl, sameOutputs_completeErr s _, rfl, rfl⟩
  · have hcop : Nat.Coprime (s.value .m - 1) (s.value .m) :=
      (Nat.coprime_self_sub_left (by omega)).2 (Nat.coprime_one_left _)
    rw [acceptCoprime_eq_accept (by omega) (by omega) hcop]

/-- Settles O39: the candidate is below M, so R holds it whole. -/
theorem randcoprimeCommitsItsCandidate : Obligations.RandcoprimeCommitsItsCandidate := by
  unfold Obligations.RandcoprimeCommitsItsCandidate
  intro s c g hshape hs (hm : 2 < s.value .m) hc hd h2 hcop
  have hlt : c < s.value .m := Rng.draw_lt (Nat.ne_zero_of_lt hm) hd
  have hexec : exec .randcoprime s = .next (s.commitCandidate c g) :=
    (execRandcoprime_searching hs).trans
      (congrArg _ (State.attempt_of_accept hc hd (acceptCoprime_eq_accept h2 hlt hcop g)))
  exact ⟨_, hexec, s.commitCandidate_succeeded c g,
    hshape.commitCandidate_value_r (hlt.trans (hshape.value_lt .m)) g, s.commitCandidate_ready c g, hlt,
    s.commitCandidate_frame c g⟩

/-- The exponent that a RANDCOPRIME attempt leaves in R is coprime to M (44_random_search.md R194). -/
theorem State.Shaped.randcoprime_value_r_coprime {s t : State} (h : s.Shaped) (hs : s.engine = .searching)
    (hm : 2 < s.value .m) (ht : exec .randcoprime s = .next t) (hok : t.succeeded) :
    Nat.gcd (t.value .r) (s.value .m) = 1 := by
  rw [exec, execRandcoprime_searching hs] at ht
  cases ht
  obtain ⟨e, g, _, hd, haccept, hcommit⟩ := State.attempt_succeeded hs hok
  have hlt : e < s.value .m := Rng.draw_lt (Nat.ne_zero_of_lt hm) hd
  rw [hcommit, h.commitCandidate_value_r (hlt.trans (h.value_lt .m))]
  exact gcd_eq_one_of_acceptCoprime haccept

/-- Settles O57: MODINV inverts what is coprime to M, and M is above 1. -/
theorem selectedExponentHasAnInverse : Obligations.SelectedExponentHasAnInverse := by
  unfold Obligations.SelectedExponentHasAnInverse
  intro s t u hshape hs (hm : 2 < s.value .m) ht hok hu hua hum
  have hcop : Nat.gcd (u.value .a) (u.value .m) = 1 := by
    rw [hua, hum]
    exact hshape.randcoprime_value_r_coprime hs hm ht hok
  obtain ⟨v, hv, hvok, hlt, hinv, -⟩ := modinvCommitsTheInverse u hu (by omega) hcop
  exact ⟨v, hv, hvok, hlt, hinv.trans (Nat.mod_eq_of_lt (by omega))⟩

end Sys2Proof.Machine

namespace Sys2Proof.Machine

open Sys2Proof

/-! ## Illegal command words (30_encoding.md R93, 60_exceptions.md R211) -/

/-- A legal word has its reserved field 0 and an opcode from 1 to 6. -/
theorem exists_decodeWord_error {w : Word} (h : rsvField w ≠ 0#24 ∨ opField w = 0x00#8 ∨ 0x07 ≤ (opField w).toNat) :
    ∃ e, decodeWord w = .error e := by
  cases hd : decodeWord w with
  | error e => exact ⟨e, rfl⟩
  | ok i =>
    obtain ⟨-, hrsv, h1, h6, -⟩ := encode_fields i
    rw [encode_of_decodeWord hd] at hrsv h1 h6
    obtain hbad | hbad | hbad := h
    · exact absurd hrsv hbad
    · rw [hbad] at h1; cases h1
    · omega

theorem State.uninitIssue_of_illegal {s : State} {w : Word} {e : Illegal} (hd : decodeWord w = .error e) :
    s.uninitIssue w = false := by
  simp only [State.uninitIssue, hd]

/-- Settles O4: the word does not decode, which both the mark check and the engine ask first. -/
theorem illegalWordCompletesWithIllegalCommand : Obligations.IllegalWordCompletesWithIllegalCommand := by
  unfold Obligations.IllegalWordCompletesWithIllegalCommand
  intro s w h
  obtain ⟨e, hd⟩ := exists_decodeWord_error h
  exact ⟨State.uninitIssue_of_illegal hd, rfl, fun hp hh => State.engineStep_of_illegal hp hh hd⟩

/-! ## The interrupt (10_state.md R39, 60_exceptions.md R220, R221) -/

theorem State.irq_of_done {s : State} (h : s.status.done = true) : s.irq = s.irqEn := by
  simp [State.irq, h]

theorem State.irq_of_not_done {s : State} (h : s.status.done = false) : s.irq = false := by
  simp [State.irq, h]

/-- An engine step that ends `IDLE` on a command has completed it: a held command stays `BUSY`. -/
theorem engineStep_completed_of_idle {s t : State} {w : Word} (hp : s.phase = .busy w) (h : s.engineStep = .next t)
    (hidle : t.phase = .idle) : t.completed := by
  obtain ⟨-, rfl⟩ | ⟨_, -, -, ⟨-, -, rfl⟩ | ⟨i, -, hx⟩⟩ := engineStep_next h
  · rw [hp] at hidle; cases hidle
  · exact ⟨rfl, rfl⟩
  · obtain ⟨hdone, -⟩ := errorCompletionWritesNoOutput i s t w hp hx hidle
    exact ⟨hidle, hdone⟩

theorem engineStep_irqEn {s t : State} (h : s.engineStep = .next t) : t.irqEn = s.irqEn := by
  obtain ⟨-, rfl⟩ | ⟨_, -, -, ⟨-, -, rfl⟩ | ⟨i, -, hx⟩⟩ := engineStep_next h
  · rfl
  · rfl
  · obtain ⟨⟨-, -, -, -, -, -, -, hirq, -⟩, -⟩ := exec_frame hx
    exact hirq

@[simp] theorem State.issue_status (s : State) (w : Word) : (s.issue w).status = s.status.atIssue := by
  unfold State.issue; split <;> rfl

/-- Settles O11: a completion sets DONE, and each of the three writes clears it. -/
theorem completionRaisesTheInterrupt : Obligations.CompletionRaisesTheInterrupt := by
  unfold Obligations.CompletionRaisesTheInterrupt
  refine ⟨fun s t w hp h hidle => ?_, fun s v hv => ?_, fun s w hp => ?_, fun s v hv => ?_⟩
  · obtain ⟨-, hdone⟩ := engineStep_completed_of_idle hp h hidle
    rw [State.irq_of_done hdone, engineStep_irqEn h]
  · have hwrite : s.access (.write 0x00C#12 4 0xF#4 v) = (s.writeStatus v).answer .written :=
      s.access_write_ctl .status v
    refine State.irq_of_not_done ?_
    rw [hwrite, State.answer_status, State.writeStatus_status, Status.atWrite_eq_done]
    exact if_pos hv
  · have hwrite : s.access (.write 0x010#12 4 0xF#4 w) = (s.issue w).answer .written :=
      State.access_write_ctl_of_idle (c := .cmd) hp rfl
    refine State.irq_of_not_done ?_
    rw [hwrite, State.answer_status, State.issue_status]
    rfl
  · have hwrite : s.access (.write 0x008#12 4 0xF#4 v) = (s.writeCtrl v).answer .written := s.access_write_ctl .ctrl v
    refine State.irq_of_not_done ?_
    rw [hwrite, s.writeCtrl_of_srst hv]
    rfl

/-! ## Attempts that end with an error (44_random_search.md R183; 60_exceptions.md R215, R216) -/

/-- Past validation both search commands make attempts, and differ only in the range and the test. -/
theorem exec_searching {i : Instr} {s : State} (hi : isSearch i = true) (hs : s.engine = .searching) :
    ∃ lo hi accept, exec i s = .next (s.attempt lo hi accept) := by
  cases i with
  | randprime => exact ⟨_, _, _, execRandprime_searching hs⟩
  | randcoprime => exact ⟨_, _, _, execRandcoprime_searching hs⟩
  | modexp | extgcd | modinv | mrtest => cases hi

theorem State.attempt_of_atCeiling {s : State} {lo hi : Nat} {accept : Nat → Rng → Verdict × Rng}
    (hc : s.atCeiling = true) : s.attempt lo hi accept = s.completeErr .attemptsExhausted :=
  if_pos hc

/-- The state after an attempt that counts, leaves the RNG at `g`, and aborts on a failed draw. -/
def State.abortAttempt (s : State) (g : Rng) : State :=
  State.completeErr { s with attempts := satInc s.attempts, rng := g } .randomnessFailure

theorem State.attempt_of_fail {s : State} {lo hi : Nat} {g : Rng} {accept : Nat → Rng → Verdict × Rng}
    (hc : s.atCeiling = false) (hd : s.rng.draw lo hi = (.fail, g)) :
    s.attempt lo hi accept = s.abortAttempt g := by
  simp only [State.attempt, hc, hd, Bool.false_eq_true, if_false]
  rfl

theorem State.attempt_of_drawFailed {s : State} {lo hi c : Nat} {g : Rng} {accept : Nat → Rng → Verdict × Rng}
    (hc : s.atCeiling = false) (hd : s.rng.draw lo hi = (.ok c, g)) (hv : (accept c g).1 = .drawFailed) :
    s.attempt lo hi accept = s.abortAttempt (accept c g).2 := by
  simp only [State.attempt, hc, hd, hv, Bool.false_eq_true, if_false]
  rfl

/-- Settles O40: the ceiling check stands before the count and the draw. -/
theorem ceilingEndsTheSearch : Obligations.CeilingEndsTheSearch := by
  unfold Obligations.CeilingEndsTheSearch
  intro s i hi hs hl ha
  have hc : s.atCeiling = true := by simp [State.atCeiling, hl, ha]
  obtain ⟨lo, up, accept, hexec⟩ := exec_searching hi hs
  rw [State.attempt_of_atCeiling hc] at hexec
  exact ⟨_, hexec, s.completeErr_failedWith _, rfl, sameOutputs_completeErr s _, ha, rfl⟩

/-- A `fail` after fewer passing witnesses than rounds ends the witness draws, and what follows it stays unread. -/
theorem isProbablePrime_of_failing_script {n k : Nat} {g : Rng} {ws : List Nat} {rest : List RngAnswer} (h5 : 5 ≤ n)
    (hodd : n % 2 = 1) (hlen : ws.length < k)
    (hws : ∀ a ∈ ws, (2 ≤ a ∧ a ≤ n - 2) ∧ witnessPasses n a (decompose n).1 (decompose n).2 = true)
    (h : g.script = ws.map .ok ++ .fail :: rest) :
    isProbablePrime n k g = (.drawFailed, { g with script := rest }) := by
  obtain ⟨j, rfl⟩ : ∃ j, k = ws.length + (j + 1) := Nat.exists_eq_add_of_lt hlen
  rw [isProbablePrime_of_odd h5 hodd, witnessLoop_of_passing_script (j + 1) ws hws h]
  exact witnessLoop_of_fail j (Rng.draw_fail_script 2 (n - 2) rfl)

/-- Settles O41: a witness draw, a candidate draw of either search command, and a witness draw of RANDPRIME. -/
theorem failedDrawAbortsTheCommand : Obligations.FailedDrawAbortsTheCommand := by
  unfold Obligations.FailedDrawAbortsTheCommand
  refine ⟨rfl, fun s ws rest h5 hodd hlen hws hscript => ?_, fun s i rest hi hs hc hscript => ?_,
    fun s c g hs hc hd hv => ?_⟩
  · have htest := isProbablePrime_of_failing_script h5 hodd hlen (fun a ha => and_assoc.2 (hws a ha)) hscript
    exact ⟨_, exec_mrtest_of_drawFailed htest, State.completeErr_failedWith _ _, sameOutputs_refl s, rfl⟩
  · obtain ⟨lo, up, accept, hexec⟩ := exec_searching hi hs
    rw [State.attempt_of_fail hc (Rng.draw_fail_script lo up hscript)] at hexec
    exact ⟨_, hexec, State.completeErr_failedWith _ _, sameOutputs_refl s, rfl, rfl⟩
  · have hexec := (execRandprime_searching hs).trans (congrArg _ (State.attempt_of_drawFailed hc hd hv))
    exact ⟨_, hexec, State.completeErr_failedWith _ _, sameOutputs_refl s, rfl, rfl⟩

/-! ## The errors of MODEXP and MODINV (60_exceptions.md R212, R213) -/

theorem exec_of_zero_modulus {i : Instr} {s : State} (hi : i = .modexp ∨ i = .modinv) (hm : s.value .m = 0) :
    exec i s = .next (s.completeErr .invalidModulus) := by
  obtain rfl | rfl := hi
  · exact if_pos hm
  · exact if_pos hm

/-- Settles O24: both commands ask for M = 0 first, and raise the error on the state as it is. -/
theorem zeroModulusIsInvalid : Obligations.ZeroModulusIsInvalid := by
  unfold Obligations.ZeroModulusIsInvalid
  intro s i hi hm
  exact ⟨_, exec_of_zero_modulus hi hm, s.completeErr_failedWith _, rfl, sameOutputs_completeErr s _, rfl, rfl⟩

theorem modinv_of_not_coprime {a m : Nat} (h : Nat.gcd a m ≠ 1) : modinv a m = none :=
  if_pos (by rwa [extgcd_fst])

theorem exec_modinv_of_eq_none {s : State} (hm : s.value .m ≠ 0) (hv : modinv (s.value .a) (s.value .m) = none) :
    exec .modinv s = .next (s.completeErr .noModularInverse) := by
  simp only [exec, execModinv, if_neg hm, hv]

/-- Settles O31: the first component of extended Euclid is the gcd, and MODINV has no inverse where it is not 1. -/
theorem missingInverseIsReported : Obligations.MissingInverseIsReported := by
  unfold Obligations.MissingInverseIsReported
  intro s hm hgcd
  exact ⟨_, exec_modinv_of_eq_none hm (modinv_of_not_coprime hgcd), s.completeErr_failedWith _, rfl,
    sameOutputs_completeErr s _⟩

/-! ## Recorded faults (60_exceptions.md R224, 20_memory.md R69) -/

/-- Every fault recorded in `s` is recorded in `t`, and a `BusFault` that is new in `t` came with a `BusError` that
left the block as it was. -/
structure FaultsStay (s t : State) : Prop where
  busFault      : s.faults.busFault = true → t.faults.busFault = true
  uninitRead    : s.faults.uninitRead = true → t.faults.uninitRead = true
  coeffOverflow : s.faults.coeffOverflow = true → t.faults.coeffOverflow = true
  newBusFault   : s.faults.busFault = false → t.faults.busFault = true →
    t.answers = .busError :: s.answers ∧ t.block = s.block

/-- A move that answers no `BusError` leaves the `BusFault` bit alone. -/
theorem FaultsStay.of_busFault_eq {s t : State} (hb : t.faults.busFault = s.faults.busFault)
    (hu : s.faults.uninitRead = true → t.faults.uninitRead = true)
    (hc : s.faults.coeffOverflow = true → t.faults.coeffOverflow = true) : FaultsStay s t :=
  ⟨hb.trans, hu, hc, fun h0 h1 => by rw [hb, h0] at h1; cases h1⟩

theorem FaultsStay.of_faults_eq {s t : State} (h : t.faults = s.faults) : FaultsStay s t :=
  .of_busFault_eq (by rw [h]) (by rw [h]; exact id) (by rw [h]; exact id)

theorem FaultsStay.busError (s : State) : FaultsStay s s.busError :=
  ⟨fun _ => rfl, id, id, fun _ _ => ⟨rfl, rfl⟩⟩

theorem FaultsStay.answer_issue (s : State) (w : Word) : FaultsStay s ((s.issue w).answer .written) := by
  obtain ⟨e, h⟩ := s.issue_eq w
  rw [h]
  exact .of_busFault_eq rfl (fun hu => by simp [hu]) id

theorem FaultsStay.access (s : State) (acc : Access) : FaultsStay s (s.access acc) := by
  cases access_ends s acc with
  | refused ht => rw [ht]; exact .busError s
  | uninit z i _ ht => rw [ht]; exact .of_busFault_eq rfl (fun _ => rfl) id
  | issue v _ ht => rw [ht]; exact .answer_issue s v
  | read w ht => rw [ht]; exact .of_faults_eq rfl
  | ctrl v ht => rw [ht]; exact .of_faults_eq (s.writeCtrl_faults v)
  | status v ht => rw [ht]; exact .of_faults_eq rfl
  | rounds v _ ht => rw [ht]; exact .of_faults_eq rfl
  | numbits v _ ht => rw [ht]; exact .of_faults_eq rfl
  | limit v _ ht => rw [ht]; exact .of_faults_eq rfl
  | limb z i v _ _ ht => rw [ht]; exact .of_faults_eq (s.setBig_faults z _)

/-- The host's program and the turns are neither the block's nor in the fault record. -/
theorem FaultsStay.of_advanced {s t : State} {prog : List HostOp} {rest : List Turn}
    (h : FaultsStay { s with program := prog, turns := rest } t) : FaultsStay s t :=
  ⟨h.busFault, h.uninitRead, h.coeffOverflow, h.newBusFault⟩

theorem FaultsStay.hostStep (s : State) : FaultsStay s s.hostStep := by
  obtain h | ⟨prog, acc, h⟩ := hostStep_cases s <;> rw [h]
  · exact .of_faults_eq rfl
  · exact .of_advanced (FaultsStay.access { s with program := prog } acc)

/-- The bound check of a commit adds to the record, and nothing else in a command touches it. -/
theorem exec_keeps_coeffOverflow {i : Instr} {s t : State} (h : exec i s = .next t)
    (hc : s.faults.coeffOverflow = true) : t.faults.coeffOverflow = true := by
  cases exec_ends h with
  | error code n g ht => rw [ht]; exact hc
  | commit o n g fits ht => rw [ht]; simp [hc]
  | begun ht => rw [ht]; exact hc
  | rejected g ht => rw [ht]; exact hc

theorem FaultsStay.engineStep {s t : State} (h : s.engineStep = .next t) : FaultsStay s t := by
  obtain ⟨-, rfl⟩ | ⟨_, -, -, ⟨-, -, rfl⟩ | ⟨i, -, hx⟩⟩ := engineStep_next h
  · exact .of_faults_eq rfl
  · exact .of_faults_eq rfl
  · obtain ⟨-, -, hbus, huninit, -⟩ := exec_frame hx
    exact .of_busFault_eq hbus huninit.trans (exec_keeps_coeffOverflow hx)

theorem FaultsStay.step {s t : State} (h : step s = .next t) : FaultsStay s t := by
  obtain ⟨rest, -, rfl | he | ⟨-, rfl⟩⟩ := step_next h
  · exact .of_advanced (FaultsStay.hostStep { s with turns := rest })
  · exact .of_advanced (FaultsStay.engineStep he)
  · exact .of_faults_eq rfl

/-- Settles O53: each agent's move keeps the record, and a refused access is the only one that records `BusFault`. -/
theorem recordedFaultsStay : Obligations.RecordedFaultsStay := by
  unfold Obligations.RecordedFaultsStay
  intro s t h
  obtain ⟨hb, hu, hc, hnew⟩ := FaultsStay.step h
  exact ⟨hb, hu, hc, hnew⟩

/-! ## No step stops (60_exceptions.md R224) -/

theorem engineStep_exists_next (s : State) : ∃ t, s.engineStep = .next t := by
  cases hp : s.phase with
  | idle => exact ⟨s, State.engineStep_of_idle hp⟩
  | busy w =>
    by_cases hh : s.engine = .held
    · exact ⟨s, State.engineStep_of_held hh⟩
    cases hd : decodeWord w with
    | error e => exact ⟨_, State.engineStep_of_illegal hp hh hd⟩
    | ok i => rw [State.engineStep_of_decode hp hh hd]; exact exec_next i s

/-- Settles O60: a move of the host or of the reset input is a function, and the engine's step has an answer. -/
theorem everyStateHasANextState : Obligations.EveryStateHasANextState := by
  unfold Obligations.EveryStateHasANextState
  intro s
  unfold step
  split
  · exact ⟨_, rfl⟩
  · exact engineStep_exists_next _
  · exact ⟨_, rfl⟩
  · split
    · exact engineStep_exists_next s
    · exact ⟨_, rfl⟩

end Sys2Proof.Machine

namespace Sys2Proof.Machine

open Sys2Proof

/-! ## A hardware reset (70_reset_and_hazards.md R250) -/

/-- The reset input's move: the reset of the state with its own turn used up. -/
theorem step_of_reset_turn {s : State} {rest : List Turn} (h : s.turns = .reset :: rest) :
    step s = .next ({ s with turns := rest } : State).hardReset := by
  simp only [step, h]

/-- What a hardware reset keeps is no part of the block (notes/assumptions/8.md); the rest is the table of
10_state.md R41. -/
@[simp] theorem State.hardReset_block (s : State) : s.hardReset.block = (State.resetWith s.cfg).block := rfl

/-- Settles O7: the reset turn's move is the hardware reset, whatever the phase, and that keeps all but the block. -/
theorem hardwareResetGivesResetState : Obligations.HardwareResetGivesResetState := by
  unfold Obligations.HardwareResetGivesResetState
  intro s rest hturns
  exact ⟨_, step_of_reset_turn hturns, State.hardReset_block _, State.hardReset_turns _, State.hardReset_faults _,
    State.hardReset_answers _, State.hardReset_program _, State.hardReset_rng _⟩

end Sys2Proof.Machine
